-- ==== Sys2Proof/Word.lean ====
section
/-! DEFINITION. The 32-bit word of every register and bus datum (R6, R8). -/

namespace Sys2Proof

/-- A 32-bit word, bit 0 the least significant (R6 XLEN, R8). -/
abbrev Word := BitVec 32

end Sys2Proof
end

