-- ==== Sys2Proof/Config.lean ====
section
/-! DEFINITION. The configuration (R6, R60) and the free values (R14). What the spec leaves OPEN is an opaque
constant: nothing can be proved of its value, so a theorem holds for every value of it. -/

namespace Sys2Proof.Config

/-- TOTAL_IRQ (R6, R7; D2). -/
def totalIrq : Nat := 72

/-- INTC_BASE divided by 4. OPEN (R6; D3; log 1). -/
opaque intcBaseIndex : BitVec 30

/-- INTC_BASE, "a 32-bit byte address, a multiple of 4" (R6): so by its two low bits. OPEN. -/
def intcBase : Word := intcBaseIndex ++ 0#2

/-- HWEN_RESET, the word for HWEN0. OPEN (R6, R49, R59; D23; log 2). -/
opaque hwenReset0 : Word

/-- HWEN_RESET, the word for HWEN1. OPEN (R6, R49, R59; D23; log 2). -/
opaque hwenReset1 : Word

/-- HWEN_RESET, the word for HWENB. OPEN (R6, R49, R59; D23; log 2). -/
opaque hwenResetB : Word

/-- SUMMARY_COHERENT (R6, R53; D10). OPEN, so claims hold for both values (log 3). -/
opaque summaryCoherent : Bool

/-- The n-th Draw() of a run: an arbitrary 32-bit value that "obeys no law" (R14). FREE VALUE (log 6). -/
opaque draw : Nat → Word

end Sys2Proof.Config
end

