-- ==== Sys2Proof/Syntax.lean ====
section
/-! DEFINITION. The operations of the engine: `Instr`, one constructor per row of spec/opcode_table.json; the raw
transactions of the four formats (`Offer`, R90); and the reasons and operations of a refusal (R58, R211). -/

namespace Sys2Proof

/-- The operations (R92, R94, R97, R98). Operands are assembled as R91, R95 and R97 say. -/
inductive Instr where
  /-- CSRR IRQBASIC (R110). -/
  | csrrIrqbasic
  /-- CSRR PENDING1 (R111). -/
  | csrrPending1
  /-- CSRR PENDING2 (R112). -/
  | csrrPending2
  /-- CSRR FIQCONTROL (R113). -/
  | csrrFiqcontrol
  /-- CSRR ENABLE1 (R114). -/
  | csrrEnable1
  /-- CSRR ENABLE2 (R115). -/
  | csrrEnable2
  /-- CSRR ENABLEBASIC (R116). -/
  | csrrEnablebasic
  /-- CSRR DISABLE1 (R117). -/
  | csrrDisable1
  /-- CSRR DISABLE2 (R118). -/
  | csrrDisable2
  /-- CSRR DISABLEBASIC (R119). -/
  | csrrDisablebasic
  /-- CSRW IRQBASIC, v (R120). -/
  | csrwIrqbasic (v : Word)
  /-- CSRW PENDING1, v (R121). -/
  | csrwPending1 (v : Word)
  /-- CSRW PENDING2, v (R122). -/
  | csrwPending2 (v : Word)
  /-- CSRW FIQCONTROL, v (R123). -/
  | csrwFiqcontrol (v : Word)
  /-- CSRW ENABLE1, v (R124). -/
  | csrwEnable1 (v : Word)
  /-- CSRW ENABLE2, v (R125). -/
  | csrwEnable2 (v : Word)
  /-- CSRW ENABLEBASIC, v (R126). -/
  | csrwEnablebasic (v : Word)
  /-- CSRW DISABLE1, v (R127). -/
  | csrwDisable1 (v : Word)
  /-- CSRW DISABLE2, v (R128). -/
  | csrwDisable2 (v : Word)
  /-- CSRW DISABLEBASIC, v (R129). -/
  | csrwDisablebasic (v : Word)
  /-- REGISTER irq, v, handler, context (R140): the handler is D0 where v = 1 and 0 where v = 0 (R95). -/
  | register (irq : BitVec 8) (v : Bool) (handler context : Word)
  /-- ENABLE irq (R141). -/
  | enable (irq : BitVec 8)
  /-- DISABLE irq (R142). -/
  | disable (irq : BitVec 8)
  /-- BLOCK (R200). -/
  | block
  /-- UNBLOCK (R201). -/
  | unblock
  /-- ENTRY, the interrupt entry event (R160). -/
  | entry
  /-- HRET, the handler return event (R169). -/
  | hret
  /-- ENV, the interrupt sources changing their inputs (R171). -/
  | env (basic pend1 pend2 : Word)
  /-- S_BSR, the basic-status read (R162). -/
  | sBsr
  /-- S_LOAD, the bank load with the shadow filter (R164). -/
  | sLoad
  /-- S_SELECT, the priority encode and vector lookup (R166). -/
  | sSelect
  /-- S_DONE, the end of a bank (R167). -/
  | sDone
  /-- S_COMMIT, the THREAD's shadow commit (R143). -/
  | sCommit
deriving DecidableEq, Repr

/-- The two issuers of CSR accesses and commands (R31, R90). -/
inductive Issuer where
  | thread
  | handler
deriving DecidableEq, Repr

/-- The four agents that take steps (R31). -/
inductive Agent where
  | engine
  | thread
  | handler
  | env
deriving DecidableEq, Repr

/-- The direction of a CSR transaction (R91). -/
inductive Dir where
  | read
  | write
deriving DecidableEq, Repr

/-- The ten registers of the CSR window, in the order of R38. -/
inductive CsrReg where
  | irqBasic
  | pending1
  | pending2
  | fiqControl
  | enable1
  | enable2
  | enableBasic
  | disable1
  | disable2
  | disableBasic
deriving DecidableEq, Repr

/-- A byte address on the CSR bus. `abs` is the address itself; `window off` is the address INTC_BASE + off, written
as R13's CsrRead(off) and CsrWrite(off, v) write it (log 17). -/
inductive BusAddr where
  | abs (addr : Word)
  | window (off : Word)
deriving DecidableEq, Repr

/-- A raw operation as an agent offers it, before decoding: the four formats of R90. -/
inductive Offer where
  /-- A CSR bus transaction (R91) of n bytes (R70). The datum counts for a write only. -/
  | csr (who : Issuer) (dir : Dir) (addr : BusAddr) (n : Nat) (data : Word)
  /-- A command word C with its data lanes D0 and D1 (R93). -/
  | cmd (who : Issuer) (c d0 d1 : Word)
  /-- An event code with the payload of ENV (R97). -/
  | evt (code : BitVec 8) (basic pend1 pend2 : Word)
  /-- An internal step, named by its label (R98). -/
  | step (label : BitVec 8)
deriving DecidableEq, Repr

/-- The format of an operation (R90). -/
inductive Format where
  | csr
  | cmd
  | evt
  | step
deriving DecidableEq, Repr

/-- Why the spec gives an operation no meaning, with the recorded info (R211). A refusal of the spec is a NEXT state of
the machine, with REFUSED set (R14, R58). -/
inductive RefuseReason where
  /-- A CSR access at an offset of 0x28 or more (R70). -/
  | unmapped (addr : Word)
  /-- A CSR access inside the window at an address that is no multiple of 4 (R70). -/
  | misaligned (addr : Word)
  /-- A CSR access of width other than 32 bits (R70, R71). -/
  | subWord (addr : Word) (n : Nat)
  /-- A write to IRQBASIC, PENDING1 or PENDING2 (R120 to R122). -/
  | readOnlyWrite (off datum : Word)
  /-- A write to FIQCONTROL (R123). -/
  | fiqControlWrite (datum : Word)
  /-- A command word that matches no row (R96). -/
  | reservedCommand (word : Word)
  /-- A command while AWAIT = 1 (R146). -/
  | commandInHandler (word : Word)
  /-- PHASE holding 5, 6 or 7 (R33). -/
  | phaseCorrupt (phase : BitVec 3)
deriving DecidableEq, Repr

/-- The operation of a refusal (R58, R211): the decoded operation, the transaction that decodes to none, or the ENGINE's
step, which has no name where PHASE holds no phase (R33). -/
inductive Operation where
  | instr (i : Instr)
  | transaction (o : Offer)
  | engineStep
deriving DecidableEq, Repr

/-- What REFUSED holds: "the reason and the operation of the first refusal" (R58). -/
structure RefusedMark where
  reason : RefuseReason
  operation : Operation
deriving DecidableEq, Repr

/-- What decoding an offer gives (R100): one row, one refusal, or no step at all (a code that names no event or step). -/
inductive Decoded where
  | instr (i : Instr)
  | refuse (r : RefuseReason)
  | noStep
deriving DecidableEq, Repr

end Sys2Proof
end

