-- ==== Sys2Proof/WellFormed.lean ====
section
/-! DEFINITION. When an operation is one that R95 assembles from an encoding. -/

namespace Sys2Proof

/-- R95: "a REGISTER with v = 0 stores an empty entry", its handler operand is 0 whatever D0 holds. Every other operand
is as wide as its field, so nothing else can be ill-formed. -/
def Instr.emptyHandlerIsZero : Instr → Bool
  | .register _ v handler _ => v || handler == 0#32
  | _ => true

/-- An operation that some encoding gives. -/
def Instr.WellFormed (i : Instr) : Prop := i.emptyHandlerIsZero = true

end Sys2Proof
end

