-- ==== Sys2Proof/Decode.lean ====
section
/-! DEFINITION. The decoder of the four formats, total on every input (R100), then the encoder, and the reading of the
opcode table's bit numbers. -/

namespace Sys2Proof

/-! ### Format CSR (R70, R91, R92) -/

/-- The offset of a register: the k-th register of R38 is at 4k. -/
def CsrReg.offset : CsrReg → Word
  | .irqBasic => 0x00#32
  | .pending1 => 0x04#32
  | .pending2 => 0x08#32
  | .fiqControl => 0x0C#32
  | .enable1 => 0x10#32
  | .enable2 => 0x14#32
  | .enableBasic => 0x18#32
  | .disable1 => 0x1C#32
  | .disable2 => 0x20#32
  | .disableBasic => 0x24#32

/-- The k-th register of the window (R38). -/
def CsrReg.ofIndex : Nat → Option CsrReg
  | 0 => some .irqBasic
  | 1 => some .pending1
  | 2 => some .pending2
  | 3 => some .fiqControl
  | 4 => some .enable1
  | 5 => some .enable2
  | 6 => some .enableBasic
  | 7 => some .disable1
  | 8 => some .disable2
  | 9 => some .disableBasic
  | _ => none

/-- The byte address the bus carries. -/
def BusAddr.address : BusAddr → Word
  | .abs addr => addr
  | .window off => Config.intcBase + off

/-- `off <- (addr - INTC_BASE) mod 2^32` (R70). -/
def BusAddr.offset : BusAddr → Word
  | .abs addr => addr - Config.intcBase
  | .window off => off

/-- The row a direction and a register name (R92). -/
def csrInstr : Dir → CsrReg → Word → Instr
  | .read, .irqBasic, _ => .csrrIrqbasic
  | .read, .pending1, _ => .csrrPending1
  | .read, .pending2, _ => .csrrPending2
  | .read, .fiqControl, _ => .csrrFiqcontrol
  | .read, .enable1, _ => .csrrEnable1
  | .read, .enable2, _ => .csrrEnable2
  | .read, .enableBasic, _ => .csrrEnablebasic
  | .read, .disable1, _ => .csrrDisable1
  | .read, .disable2, _ => .csrrDisable2
  | .read, .disableBasic, _ => .csrrDisablebasic
  | .write, .irqBasic, v => .csrwIrqbasic v
  | .write, .pending1, v => .csrwPending1 v
  | .write, .pending2, v => .csrwPending2 v
  | .write, .fiqControl, v => .csrwFiqcontrol v
  | .write, .enable1, v => .csrwEnable1 v
  | .write, .enable2, v => .csrwEnable2 v
  | .write, .enableBasic, v => .csrwEnablebasic v
  | .write, .disable1, v => .csrwDisable1 v
  | .write, .disable2, v => .csrwDisable2 v
  | .write, .disableBasic, v => .csrwDisablebasic v

/-- R70's address decode: SubWord, then Unmapped, then Misaligned, then the register of index off / 4. -/
def decodeCsr (dir : Dir) (addr : BusAddr) (n : Nat) (data : Word) : Decoded :=
  if n ≠ 4 then .refuse (.subWord addr.address n)
  else if 0x28 ≤ addr.offset.toNat then .refuse (.unmapped addr.address)
  else if addr.offset.toNat % 4 ≠ 0 then .refuse (.misaligned addr.address)
  else
    match CsrReg.ofIndex (addr.offset.toNat / 4) with
    | some r => .instr (csrInstr dir r data)
    | none => .refuse (.unmapped addr.address)

/-! ### Format CMD (R93 to R96) -/

/-- The IRQ field C[7:0], unsigned (R93, R95). -/
def cmdIrq (c : Word) : BitVec 8 := c.extractLsb' 0 8

/-- The valid bit C[8] (R93). -/
def cmdValid (c : Word) : Bool := c.getLsbD 8

/-- The command map by match and mask (R94); a word that matches no row is ReservedCommand (R96). -/
def decodeCmd (c d0 d1 : Word) : Decoded :=
  if c &&& 0xFFFFFE00#32 = 0x10000000#32 then
    .instr (.register (cmdIrq c) (cmdValid c) (if cmdValid c then d0 else 0#32) d1)
  else if c &&& 0xFFFFFF00#32 = 0x20000000#32 then .instr (.enable (cmdIrq c))
  else if c &&& 0xFFFFFF00#32 = 0x30000000#32 then .instr (.disable (cmdIrq c))
  else if c &&& 0xFFFFFFFF#32 = 0x40000000#32 then .instr .block
  else if c &&& 0xFFFFFFFF#32 = 0x50000000#32 then .instr .unblock
  else .refuse (.reservedCommand c)

/-! ### Formats EVT and STEP (R97, R98) -/

/-- The event codes (R97); any other code names no event. -/
def decodeEvt (code : BitVec 8) (basic pend1 pend2 : Word) : Decoded :=
  if code = 0x01#8 then .instr .entry
  else if code = 0x02#8 then .instr .hret
  else if code = 0x03#8 then .instr (.env basic pend1 pend2)
  else .noStep

/-- The step labels (R98); any other label names no step. -/
def decodeStep (label : BitVec 8) : Decoded :=
  if label = 0x10#8 then .instr .sBsr
  else if label = 0x11#8 then .instr .sLoad
  else if label = 0x12#8 then .instr .sSelect
  else if label = 0x13#8 then .instr .sDone
  else if label = 0x14#8 then .instr .sCommit
  else .noStep

/-- Decoding is total, and the port tells the format (R90, R100). -/
def decode : Offer → Decoded
  | .csr _ dir addr n data => decodeCsr dir addr n data
  | .cmd _ c d0 d1 => decodeCmd c d0 d1
  | .evt code basic pend1 pend2 => decodeEvt code basic pend1 pend2
  | .step label => decodeStep label

/-! ### The codes of the refusal reasons (R211) -/

/-- R211's code of a reason. -/
def RefuseReason.code : RefuseReason → Nat
  | .unmapped _ => 1
  | .misaligned _ => 2
  | .subWord _ _ => 3
  | .readOnlyWrite _ _ => 4
  | .fiqControlWrite _ => 5
  | .reservedCommand _ => 6
  | .commandInHandler _ => 7
  | .phaseCorrupt _ => 8

/-- The code REFUSED is set with (R211). -/
def RefusedMark.code (m : RefusedMark) : Nat := m.reason.code

/-! ### The encoder, from the same tables -/

/-- A command word from its fields OP[31:28], RSV[27:9] = 0, V[8], IRQ[7:0] (R93). -/
def cmdWord (op : BitVec 4) (v : Bool) (irq : BitVec 8) : Word :=
  op ++ 0#19 ++ BitVec.ofBool v ++ irq

/-- The command word of each command (R94); REGISTER has OP 1, ENABLE 2, DISABLE 3, BLOCK 4, UNBLOCK 5. -/
def registerWord (v : Bool) (irq : BitVec 8) : Word := cmdWord 0b0001#4 v irq
/-- R94. -/
def enableWord (irq : BitVec 8) : Word := cmdWord 0b0010#4 false irq
/-- R94. -/
def disableWord (irq : BitVec 8) : Word := cmdWord 0b0011#4 false irq
/-- R94. -/
def blockWord : Word := cmdWord 0b0100#4 false 0#8
/-- R94. -/
def unblockWord : Word := cmdWord 0b0101#4 false 0#8

/-- A whole-word read of a register of the window (R13). -/
def readOffer (who : Issuer) (r : CsrReg) : Offer := .csr who .read (.window r.offset) 4 0#32

/-- A whole-word write of a register of the window (R13). -/
def writeOffer (who : Issuer) (r : CsrReg) (v : Word) : Offer := .csr who .write (.window r.offset) 4 v

/-- The transaction that carries an operation, on the port of its format (R90). -/
def encode (who : Issuer) : Instr → Offer
  | .csrrIrqbasic => readOffer who .irqBasic
  | .csrrPending1 => readOffer who .pending1
  | .csrrPending2 => readOffer who .pending2
  | .csrrFiqcontrol => readOffer who .fiqControl
  | .csrrEnable1 => readOffer who .enable1
  | .csrrEnable2 => readOffer who .enable2
  | .csrrEnablebasic => readOffer who .enableBasic
  | .csrrDisable1 => readOffer who .disable1
  | .csrrDisable2 => readOffer who .disable2
  | .csrrDisablebasic => readOffer who .disableBasic
  | .csrwIrqbasic v => writeOffer who .irqBasic v
  | .csrwPending1 v => writeOffer who .pending1 v
  | .csrwPending2 v => writeOffer who .pending2 v
  | .csrwFiqcontrol v => writeOffer who .fiqControl v
  | .csrwEnable1 v => writeOffer who .enable1 v
  | .csrwEnable2 v => writeOffer who .enable2 v
  | .csrwEnablebasic v => writeOffer who .enableBasic v
  | .csrwDisable1 v => writeOffer who .disable1 v
  | .csrwDisable2 v => writeOffer who .disable2 v
  | .csrwDisablebasic v => writeOffer who .disableBasic v
  | .register irq v handler context => .cmd who (registerWord v irq) handler context
  | .enable irq => .cmd who (enableWord irq) 0#32 0#32
  | .disable irq => .cmd who (disableWord irq) 0#32 0#32
  | .block => .cmd who blockWord 0#32 0#32
  | .unblock => .cmd who unblockWord 0#32 0#32
  | .entry => .evt 0x01#8 0#32 0#32 0#32
  | .hret => .evt 0x02#8 0#32 0#32 0#32
  | .env basic pend1 pend2 => .evt 0x03#8 basic pend1 pend2
  | .sBsr => .step 0x10#8
  | .sLoad => .step 0x11#8
  | .sSelect => .step 0x12#8
  | .sDone => .step 0x13#8
  | .sCommit => .step 0x14#8

/-- The format of an offer (R90). -/
def Offer.format : Offer → Format
  | .csr .. => .csr
  | .cmd .. => .cmd
  | .evt .. => .evt
  | .step _ => .step

/-- The 7-bit descriptor of a CSR operation: desc[6] is 1 for a write, desc[5:0] is off[5:0] (R91). -/
def descriptor (dir : Dir) (r : CsrReg) : BitVec 7 :=
  BitVec.ofBool (dir == .write) ++ r.offset.extractLsb' 0 6

/-! ### The numbers of the opcode table -/

/-- The transaction a 7-bit descriptor names (R91): a 4-byte access at INTC_BASE + desc[5:0], its datum word 0. -/
def descriptorOffer (who : Issuer) (desc : BitVec 7) : Offer :=
  .csr who (if desc.getLsbD 6 then .write else .read) (.window ((desc.extractLsb' 0 6).setWidth 32)) 4 0#32

/-- An 8-bit number of the table carries no port. It is read as a CSR descriptor where that names a register, else as an
event code, else as a step label (log 15). Operand words of zeros. -/
def byteOffer (who : Issuer) (code : BitVec 8) : Offer :=
  match code.getLsbD 7, decode (descriptorOffer who (code.setWidth 7)), decodeEvt code 0#32 0#32 0#32 with
  | false, .instr _, _ => descriptorOffer who (code.setWidth 7)
  | _, _, .instr _ => .evt code 0#32 0#32 0#32
  | _, _, _ => .step code

/-- The offer of a table row whose bits are w: CMD words have 32 bits, CSR descriptors 7, EVT and STEP codes 8. -/
def tableOffer (who : Issuer) (nbits w : Nat) : Offer :=
  if nbits < 8 then descriptorOffer who (BitVec.ofNat 7 (w % 2 ^ nbits))
  else if nbits = 8 then byteOffer who (BitVec.ofNat 8 w)
  else .cmd who (BitVec.ofNat 32 w) 0#32 0#32

/-- The operation the decoder reads from a table row's bits, operand words of zeros. -/
def decodeTableWord (nbits w : Nat) : Option Instr :=
  match decode (tableOffer .thread nbits w) with
  | .instr i => some i
  | .refuse _ => none
  | .noStep => none

end Sys2Proof
end

