-- ==== Sys2Proof/Machine/State.lean ====
section
/-! DEFINITION. The state of the engine (R30), its faults and refusals, and the state after reset (R59). -/

namespace Sys2Proof.Machine

/-- PHASE, 3 bits wide (R33). Values 5, 6 and 7 are no phase: "A model that finds one refuses with reason
`PhaseCorrupt`". -/
inductive Phase where
  /-- 0: no entry in progress. -/
  | idle
  /-- 1: entry taken, IRQBasic not yet read. -/
  | basicStatusRead
  /-- 2: processing bank 0. -/
  | bank0Scan
  /-- 3: processing bank 1. -/
  | bank1Scan
  /-- 4: processing bank 2. -/
  | bank2Scan
  /-- 5: never reached. -/
  | corrupt5
  /-- 6: never reached. -/
  | corrupt6
  /-- 7: never reached. -/
  | corrupt7
deriving DecidableEq, Repr

/-- The three banks (R7): IRQ 0 to 31, 32 to 63, 64 to 71. -/
inductive Bank where
  | b0
  | b1
  | b2
deriving DecidableEq, Repr

/-- TPEND, the THREAD's in-flight shadow commit (R37). -/
inductive TPend where
  | none
  | set (b : Bank) (m : Word)
  | clr (b : Bank) (m : Word)
deriving DecidableEq, Repr

/-- An entry of the vector table (R50). -/
structure VtEntry where
  hvalid : Bool
  handler : Word
  context : Word
deriving DecidableEq, Repr

/-- The empty entry, every field 0 (R50, R59). -/
def VtEntry.empty : VtEntry := { hvalid := false, handler := 0#32, context := 0#32 }

/-- CALL(handler, irq, context), one event of TRACE (R57, R99). -/
structure Call where
  handler : Word
  irq : BitVec 8
  context : Word
deriving DecidableEq, Repr

/-- The result a CSR read returned, and to whom (40_csr_interface.md; D26; log 7). -/
structure ReadResult where
  issuer : Issuer
  reg : CsrReg
  value : Word
deriving DecidableEq, Repr

/-- The state: every element of R30, then three fields of the model's own (log 6, 7, 8). -/
structure State where
  /-- PHASE (R33). -/
  phase : Phase
  /-- LOADED (R34). -/
  loaded : Bool
  /-- AWAIT (R34). -/
  awaiting : Bool
  /-- BSNAP (R35). -/
  bsnap : Word
  /-- W (R35). -/
  w : Word
  /-- CUR_BIT (R35). -/
  curBit : BitVec 5
  /-- GMASK (R36): true is blocked. -/
  gmask : Bool
  /-- TPEND (R37). -/
  tpend : TPend
  /-- HWEN0 (R49). -/
  hwen0 : Word
  /-- HWEN1 (R49). -/
  hwen1 : Word
  /-- HWENB (R49). -/
  hwenb : Word
  /-- VT[0..71] (R50). -/
  vt : Vector VtEntry 72
  /-- SHADOW[0] (R51). -/
  shadow0 : Word
  /-- SHADOW[1] (R51). -/
  shadow1 : Word
  /-- SHADOW[2] (R51). -/
  shadow2 : Word
  /-- IN_BASIC (R53). -/
  inBasic : Word
  /-- IN_PEND1 (R53). -/
  inPend1 : Word
  /-- IN_PEND2 (R53). -/
  inPend2 : Word
  /-- TRACE (R57), oldest call first. -/
  trace : List Call
  /-- REFUSED (R58): the reason and the operation of the first refusal, or empty. -/
  refused : Option RefusedMark
  /-- The model's own: how many Draw() values the run has taken (log 6). -/
  draws : Nat
  /-- The model's own: the results of CSR reads, oldest first (log 7). -/
  readLog : List ReadResult
  /-- The model's own: the operations offered and not yet taken, in the order offered (log 8). -/
  offers : List Offer
deriving DecidableEq, Repr

/-- Why the model stops. The engine itself raises no exception (R210). -/
inductive Fault where
  /-- Raised by S_SELECT alone, where W of bank 2 has a bit above 7, so that VT has no entry `irq`. R168 rules this out
  and no run reaches it. Safe: the model stops where the spec gives no meaning. -/
  | vectorIndex (irq : Nat)
deriving DecidableEq, Repr

/-- Why the model gives an instruction no meaning. The spec's own refusals (R211) are NEXT states, not these. -/
inductive Refusal where
  /-- Raised by an arm of exec whose instruction has no meaning yet; no arm answers it now. Safe. -/
  | notModelled (mnemonic : String)
deriving DecidableEq, Repr

/-- The machine right after reset (R59, R240, R241). BSNAP, W, CUR_BIT (log 4) and the inputs (log 5) have no reset value
in the spec and are 0 by DESIGN CHOICE; the model's own fields start empty (log 6, 7, 8). -/
def State.reset : State where
  phase := .idle
  loaded := false
  awaiting := false
  bsnap := 0#32
  w := 0#32
  curBit := 0#5
  gmask := true
  tpend := .none
  hwen0 := Config.hwenReset0
  hwen1 := Config.hwenReset1
  hwenb := Config.hwenResetB
  vt := Vector.replicate 72 VtEntry.empty
  shadow0 := 0#32
  shadow1 := 0#32
  shadow2 := 0#32
  inBasic := 0#32
  inPend1 := 0#32
  inPend2 := 0#32
  trace := []
  refused := none
  draws := 0
  readLog := []
  offers := []

end Sys2Proof.Machine
end

