-- ==== Sys2Proof/Machine/Operands.lean ====
section
/-! DEFINITION. Operand primitives: the priority encoder (R11), bank selection (R12, R144), the phases of a scan (R161,
R163). -/

namespace Sys2Proof.Machine

/-- The word with bit k alone set: `1 << k` at 32 bits (R9). -/
def bitAt (k : Nat) : Word := 1#32 <<< k

/-- `w & ~(1 << k)` (R166, R169). -/
def clearBit (w : Word) (k : Nat) : Word := w &&& ~~~(bitAt k)

/-- The highest set bit of w at or below index n, 0 where there is none. -/
def msbBelow (w : Word) : Nat → Nat
  | 0 => 0
  | n + 1 => if w.getLsbD (n + 1) then n + 1 else msbBelow w n

/-- msb32(w), "the index of the highest set bit"; meant for w ≠ 0 only (R11). -/
def msb32 (w : Word) : Nat := msbBelow w 31

/-- bank(irq), with inclusive range checks; none where irq ≥ TOTAL_IRQ (R12). -/
def bankOfIrq (irq : BitVec 8) : Option Bank :=
  if irq.toNat ≤ 31 then some .b0
  else if irq.toNat ≤ 63 then some .b1
  else if irq.toNat < Config.totalIrq then some .b2
  else none

/-- bitmask(irq) = 1 << (irq mod 32) (R12). -/
def bitmask (irq : BitVec 8) : Word := bitAt (irq.toNat % 32)

/-- BANK_BASE(b) (R6, R12). -/
def bankBase : Bank → Nat
  | .b0 => 0
  | .b1 => 32
  | .b2 => 64

/-- ENABLE_PORT(b) (R144). -/
def enablePort : Bank → CsrReg
  | .b0 => .enable1
  | .b1 => .enable2
  | .b2 => .enableBasic

/-- DISABLE_PORT(b) (R144). -/
def disablePort : Bank → CsrReg
  | .b0 => .disable1
  | .b1 => .disable2
  | .b2 => .disableBasic

/-- The 3-bit value of a phase (R33). -/
def Phase.code : Phase → BitVec 3
  | .idle => 0#3
  | .basicStatusRead => 1#3
  | .bank0Scan => 2#3
  | .bank1Scan => 3#3
  | .bank2Scan => 4#3
  | .corrupt5 => 5#3
  | .corrupt6 => 6#3
  | .corrupt7 => 7#3

/-- PHASE holds 5, 6 or 7 (R33). -/
def Phase.isCorrupt (p : Phase) : Bool := 5 ≤ p.code.toNat

/-- bankof(PHASE), for the three scan phases (R163). -/
def Phase.bank : Phase → Option Bank
  | .bank0Scan => some .b0
  | .bank1Scan => some .b1
  | .bank2Scan => some .b2
  | .idle => none
  | .basicStatusRead => none
  | .corrupt5 => none
  | .corrupt6 => none
  | .corrupt7 => none

/-- NEXT of the scan phase of a bank: Bank0Scan, Bank1Scan, Bank2Scan, Idle (R161). -/
def nextPhase : Bank → Phase
  | .b0 => .bank1Scan
  | .b1 => .bank2Scan
  | .b2 => .idle

/-- SUMMARY(b) of a basic-status snapshot (R163). -/
def summary (bsnap : Word) : Bank → Bool
  | .b0 => bsnap.getLsbD 8
  | .b1 => bsnap.getLsbD 9
  | .b2 => bsnap &&& 0xFF#32 != 0#32

/-- SUMMARY_COHERENT's relation between the three inputs (R53, R171). -/
def coherentInputs (basic pend1 pend2 : Word) : Bool :=
  basic.getLsbD 8 == (pend1 != 0#32) && basic.getLsbD 9 == (pend2 != 0#32)

/-- An ENV payload that is offered: any, unless SUMMARY_COHERENT is set, which asks for coherence (R171). `coherent` is
that parameter. -/
def payloadOffered (coherent : Bool) (basic pend1 pend2 : Word) : Bool :=
  coherentInputs basic pend1 pend2 || !coherent

end Sys2Proof.Machine
end

