-- ==== Sys2Proof/Machine/Flags.lean ====
section
/-! DEFINITION. What the flags decide: the guards of the steps (R31, R161), the issuer of a transaction, and the derived
signal IRQ_LINE (R54). The engine has no condition codes (R34). -/

namespace Sys2Proof.Machine

/-- Who issues a CSR access or a command taken in this state: HANDLER exactly while AWAIT = 1 (R31, R146; log 11). -/
def State.issuer (s : State) : Issuer := if s.awaiting then .handler else .thread

/-- IRQ_LINE: an enabled line requests service. Derived, not state; only fairness reads it (R54). -/
def State.irqLine (s : State) : Bool :=
  s.inPend1 &&& s.hwen0 != 0#32 || s.inPend2 &&& s.hwen1 != 0#32
    || (s.inBasic &&& 0xFF#32) &&& (s.hwenb &&& 0xFF#32) != 0#32

/-- An agent other than the HANDLER is about to look at a PHASE that holds no phase (R33; log 13). -/
def State.findsCorruptPhase (s : State) : Bool := !s.awaiting && s.phase.isCorrupt

/-- THREAD with `PHASE = Idle and TPEND = NONE`, or HANDLER with `AWAIT = 1` (40_csr_interface.md, R31). -/
def State.issuerGuard (s : State) : Bool := s.awaiting || (s.phase = .idle && s.tpend = .none)

/-- ENTRY: `PHASE = Idle and GMASK = 0` (R160). -/
def State.entryGuard (s : State) : Bool := s.phase = .idle && !s.gmask

/-- S_BSR: ENGINE, `PHASE = BasicStatusRead` (R162); ENGINE's internal steps need AWAIT = 0 (R31; log 18). -/
def State.bsrGuard (s : State) : Bool := s.phase = .basicStatusRead && !s.awaiting

/-- S_LOAD: a scan phase, LOADED = 0, AWAIT = 0 (R164). -/
def State.loadGuard (s : State) : Bool := s.phase.bank.isSome && !s.loaded && !s.awaiting

/-- S_SELECT: a scan phase, LOADED = 1, AWAIT = 0, W ≠ 0 (R166). -/
def State.selectGuard (s : State) : Bool := s.phase.bank.isSome && s.loaded && !s.awaiting && s.w != 0#32

/-- S_DONE: a scan phase, LOADED = 1, AWAIT = 0, W = 0 (R167). -/
def State.doneGuard (s : State) : Bool := s.phase.bank.isSome && s.loaded && !s.awaiting && s.w == 0#32

/-- HRET: HANDLER, `AWAIT = 1` (R169). -/
def State.hretGuard (s : State) : Bool := s.awaiting

/-- S_COMMIT: THREAD, `PHASE = Idle and TPEND != NONE` (R143). -/
def State.commitGuard (s : State) : Bool := s.phase = .idle && s.tpend ≠ .none

/-- ENV: always, but for payloads that SUMMARY_COHERENT rules out (R171). -/
def envGuard (basic pend1 pend2 : Word) : Bool := payloadOffered Config.summaryCoherent basic pend1 pend2

end Sys2Proof.Machine
end

