-- ==== Sys2Proof/Machine/Ops.lean ====
section
/-! DEFINITION. The named operations over the state that the meanings share: refusals (R14, R58), the turn of an agent
(R31), CSR reads and writes (R13, R38), the vector table (R50), the shadow masks (R51), interrupt entry (R160, R215) and
handler call and return (R166, R169). -/

namespace Sys2Proof.Machine

/-- The outcome of a meaning. -/
abbrev Result := Host.Outcome State Fault Refusal

/-! ### Refusals -/

/-- `refuse <Reason>` of an operation: REFUSED keeps the first refusal, and nothing else changes (R14, R58, R211). -/
def State.refuse (s : State) (r : RefuseReason) (op : Operation) : State :=
  { s with refused := some (s.refused.getD { reason := r, operation := op }) }

/-! ### Turns -/

/-- A step of an agent that looks at PHASE, for the operation it takes. A PHASE that holds no phase is refused as
PhaseCorrupt (R33); where the step's guard is false the agent is stuck and the state is as it was (R14, I11; log 10); else
the step is taken. -/
def State.turn (s : State) (op : Operation) (guard : Bool) (effect : State → Result) : Result :=
  if s.findsCorruptPhase then .next (s.refuse (.phaseCorrupt s.phase.code) op)
  else if guard then effect s
  else .next s

/-- A CSR access, by THREAD or HANDLER (40_csr_interface.md). -/
def State.csrTurn (s : State) (op : Operation) (effect : State → Result) : Result := s.turn op s.issuerGuard effect

/-- A command: THREAD's; one presented by HANDLER is refused with CommandInHandler and its word (R146). -/
def State.cmdTurn (s : State) (i : Instr) (word : Word) (effect : State → Result) : Result :=
  s.turn (.instr i) s.issuerGuard fun s =>
    if s.awaiting then .next (s.refuse (.commandInHandler word) (.instr i)) else effect s

/-! ### CSR accesses -/

/-- Draw(): the next free value, and the state with one draw taken (R14; log 6). -/
def State.draw (s : State) : Word × State := (Config.draw s.draws, { s with draws := s.draws + 1 })

/-- CsrRead(off): the value a register returns (R38). The three inputs have no side effect; every other register returns
Draw() (R42 to R48). -/
def State.csrValue (s : State) : CsrReg → Word × State
  | .irqBasic => (s.inBasic, s)
  | .pending1 => (s.inPend1, s)
  | .pending2 => (s.inPend2, s)
  | .fiqControl => s.draw
  | .enable1 => s.draw
  | .enable2 => s.draw
  | .enableBasic => s.draw
  | .disable1 => s.draw
  | .disable2 => s.draw
  | .disableBasic => s.draw

/-- The result of a CSR read goes to its issuer (40_csr_interface.md; log 7). -/
def State.logRead (s : State) (r : CsrReg) (v : Word) : State :=
  { s with readLog := s.readLog ++ [{ issuer := s.issuer, reg := r, value := v }] }

/-- A CSR read taken: the value returned to the issuer. -/
def State.csrRead (s : State) (r : CsrReg) : State := (s.csrValue r).2.logRead r (s.csrValue r).1

/-- CsrWrite(off, v): what a write of v does to a register's target (R38, R120 to R129). -/
def State.csrWrite (s : State) (r : CsrReg) (v : Word) : State :=
  match r with
  | .irqBasic => s.refuse (.readOnlyWrite r.offset v) (.instr (csrInstr .write r v))
  | .pending1 => s.refuse (.readOnlyWrite r.offset v) (.instr (csrInstr .write r v))
  | .pending2 => s.refuse (.readOnlyWrite r.offset v) (.instr (csrInstr .write r v))
  | .fiqControl => s.refuse (.fiqControlWrite v) (.instr (csrInstr .write r v))
  | .enable1 => { s with hwen0 := s.hwen0 ||| v }
  | .enable2 => { s with hwen1 := s.hwen1 ||| v }
  | .enableBasic => { s with hwenb := s.hwenb ||| v }
  | .disable1 => { s with hwen0 := s.hwen0 &&& ~~~v }
  | .disable2 => { s with hwen1 := s.hwen1 &&& ~~~v }
  | .disableBasic => { s with hwenb := s.hwenb &&& ~~~v }

/-! ### Vector table and shadow masks -/

/-- VT[irq] <- e, for an irq below TOTAL_IRQ (R50). -/
def State.setVt (s : State) (irq : Nat) (e : VtEntry) : State := { s with vt := s.vt.setIfInBounds irq e }

/-- VT[irq], none where the table has no such entry (R50). -/
def State.vtEntry (s : State) (irq : Nat) : Option VtEntry := s.vt[irq]?

/-- SHADOW[b] (R51). -/
def State.shadow (s : State) : Bank → Word
  | .b0 => s.shadow0
  | .b1 => s.shadow1
  | .b2 => s.shadow2

/-- SHADOW[b] <- v (R51). -/
def State.setShadow (s : State) (b : Bank) (v : Word) : State :=
  match b with
  | .b0 => { s with shadow0 := v }
  | .b1 => { s with shadow1 := v }
  | .b2 => { s with shadow2 := v }

/-- The shadow commit of TPEND, and TPEND <- NONE (R143). -/
def State.commit (s : State) : State :=
  match s.tpend with
  | .none => s
  | .set b m => { s.setShadow b (s.shadow b ||| m) with tpend := .none }
  | .clr b m => { s.setShadow b (s.shadow b &&& ~~~m) with tpend := .none }

/-! ### Interrupt entry, scan, handler call and return -/

/-- Taking an interrupt: nothing is saved; PHASE, LOADED and AWAIT change (R160, R215). -/
def State.takeEntry (s : State) : State :=
  { s with phase := .basicStatusRead, loaded := false, awaiting := false }

/-- SOURCE(b): the pending register for banks 0 and 1, read now; the snapshot's low byte for bank 2 (R163). -/
def State.source (s : State) : Bank → Word
  | .b0 => (s.csrValue .pending1).1
  | .b1 => (s.csrValue .pending2).1
  | .b2 => s.bsnap &&& 0xFF#32

/-- The single basic-status snapshot of an entry (R162). -/
def State.snapshot (s : State) : State :=
  { s with bsnap := (s.csrValue .irqBasic).1, phase := .bank0Scan, loaded := false }

/-- Leaving the scan of bank b: PHASE <- NEXT(PHASE), LOADED <- 0 (R164, R167). From bank 2 the entry is over (R218). -/
def State.leaveBank (s : State) (b : Bank) : State := { s with phase := nextPhase b, loaded := false }

/-- S_LOAD of bank b: the filtered pending word where the summary is set, else the bank is skipped (R164). -/
def State.loadBank (s : State) (b : Bank) : State :=
  if summary s.bsnap b then { s with w := s.source b &&& s.shadow b, loaded := true } else s.leaveBank b

/-- Calling the handler of entry e for bit k of bank b: Emit(CALL), CUR_BIT <- k, AWAIT <- 1 (R166). -/
def State.callHandler (s : State) (b : Bank) (k : Nat) (e : VtEntry) : State :=
  { s with
    trace := s.trace ++ [{ handler := e.handler, irq := BitVec.ofNat 8 (bankBase b + k), context := e.context }]
    curBit := BitVec.ofNat 5 k
    awaiting := true }

/-- S_SELECT in bank b: the highest bit of W, its vector-table entry, and the call or the silent skip (R165, R166). -/
def State.selectIn (s : State) (b : Bank) : Result :=
  match s.vtEntry (bankBase b + msb32 s.w) with
  | none => .fault (.vectorIndex (bankBase b + msb32 s.w))
  | some e =>
    if e.hvalid then .next (s.callHandler b (msb32 s.w) e)
    else .next { s with w := clearBit s.w (msb32 s.w) }

/-- The handler returns: its bit is cleared from the local copy, AWAIT <- 0 (R169, R218). -/
def State.handlerReturn (s : State) : State := { s with w := clearBit s.w s.curBit.toNat, awaiting := false }

/-- A step of the scan of the bank that PHASE names (R163). -/
def State.inBank (s : State) (effect : Bank → Result) : Result :=
  match s.phase.bank with
  | none => .next s
  | some b => effect b

end Sys2Proof.Machine
end

