-- ==== Sys2Proof/Machine/Command.lean ====
section
/-! DEFINITION. REGISTER, ENABLE, DISABLE and S_COMMIT (41_registration_enable.md R140 to R147), BLOCK and UNBLOCK
(43_global_mask.md R200 to R203). -/

namespace Sys2Proof.Machine

/-- REGISTER: one step stores the entry whole and leaves GMASK = 0; an irq of 72 or more is a no-op (R140, R147). -/
def execRegister (irq : BitVec 8) (v : Bool) (handler context : Word) (s : State) : Result :=
  s.cmdTurn (.register irq v handler context) (registerWord v irq) fun s =>
    if Config.totalIrq ≤ irq.toNat then .next s
    else
      .next { s.setVt irq.toNat { hvalid := v, handler := if v then handler else 0#32, context := context } with
        gmask := false }

/-- The first half of ENABLE: the hardware write through the bank's enable port, then TPEND <- SET(b, m) (R141). -/
def execEnable (irq : BitVec 8) (s : State) : Result :=
  s.cmdTurn (.enable irq) (enableWord irq) fun s =>
    match bankOfIrq irq with
    | none => .next s
    | some b => .next { s.csrWrite (enablePort b) (bitmask irq) with tpend := .set b (bitmask irq) }

/-- The first half of DISABLE: the hardware write through the bank's disable port, then TPEND <- CLR(b, m) (R142). -/
def execDisable (irq : BitVec 8) (s : State) : Result :=
  s.cmdTurn (.disable irq) (disableWord irq) fun s =>
    match bankOfIrq irq with
    | none => .next s
    | some b => .next { s.csrWrite (disablePort b) (bitmask irq) with tpend := .clr b (bitmask irq) }

/-- S_COMMIT: the shadow write that completes ENABLE or DISABLE (R143). -/
def execSCommit (s : State) : Result := s.turn (.instr .sCommit) s.commitGuard fun s => .next s.commit

/-- BLOCK: `GMASK <- 1` (R200). -/
def execBlock (s : State) : Result := s.cmdTurn .block blockWord fun s => .next { s with gmask := true }

/-- UNBLOCK: `GMASK <- 0` (R201). -/
def execUnblock (s : State) : Result := s.cmdTurn .unblock unblockWord fun s => .next { s with gmask := false }

end Sys2Proof.Machine
end

