-- ==== Sys2Proof/Machine/CsrRead.lean ====
section
/-! DEFINITION. The ten CSR reads (40_csr_interface.md R110 to R119). -/

namespace Sys2Proof.Machine

/-- CSRR IRQBASIC: `r <- IN_BASIC` (R110). -/
def execCsrrIrqbasic (s : State) : Result := s.csrTurn (.instr .csrrIrqbasic) fun s => .next (s.csrRead .irqBasic)

/-- CSRR PENDING1: `r <- IN_PEND1` (R111). -/
def execCsrrPending1 (s : State) : Result := s.csrTurn (.instr .csrrPending1) fun s => .next (s.csrRead .pending1)

/-- CSRR PENDING2: `r <- IN_PEND2` (R112). -/
def execCsrrPending2 (s : State) : Result := s.csrTurn (.instr .csrrPending2) fun s => .next (s.csrRead .pending2)

/-- CSRR FIQCONTROL: `r <- Draw()` (R113). -/
def execCsrrFiqcontrol (s : State) : Result := s.csrTurn (.instr .csrrFiqcontrol) fun s => .next (s.csrRead .fiqControl)

/-- CSRR ENABLE1: `r <- Draw()` (R114). -/
def execCsrrEnable1 (s : State) : Result := s.csrTurn (.instr .csrrEnable1) fun s => .next (s.csrRead .enable1)

/-- CSRR ENABLE2: `r <- Draw()` (R115). -/
def execCsrrEnable2 (s : State) : Result := s.csrTurn (.instr .csrrEnable2) fun s => .next (s.csrRead .enable2)

/-- CSRR ENABLEBASIC: `r <- Draw()` (R116). -/
def execCsrrEnablebasic (s : State) : Result :=
  s.csrTurn (.instr .csrrEnablebasic) fun s => .next (s.csrRead .enableBasic)

/-- CSRR DISABLE1: `r <- Draw()` (R117). -/
def execCsrrDisable1 (s : State) : Result := s.csrTurn (.instr .csrrDisable1) fun s => .next (s.csrRead .disable1)

/-- CSRR DISABLE2: `r <- Draw()` (R118). -/
def execCsrrDisable2 (s : State) : Result := s.csrTurn (.instr .csrrDisable2) fun s => .next (s.csrRead .disable2)

/-- CSRR DISABLEBASIC: `r <- Draw()` (R119). -/
def execCsrrDisablebasic (s : State) : Result :=
  s.csrTurn (.instr .csrrDisablebasic) fun s => .next (s.csrRead .disableBasic)

end Sys2Proof.Machine
end

