-- ==== Sys2Proof/Machine/CsrWrite.lean ====
section
/-! DEFINITION. The ten CSR writes (40_csr_interface.md R120 to R129). A write to a read-only register or to FIQControl
is refused, which is a next state with REFUSED set. -/

namespace Sys2Proof.Machine

/-- CSRW IRQBASIC: `refuse ReadOnlyWrite(0x00, v)` (R120). -/
def execCsrwIrqbasic (v : Word) (s : State) : Result :=
  s.csrTurn (.instr (.csrwIrqbasic v)) fun s => .next (s.csrWrite .irqBasic v)

/-- CSRW PENDING1: `refuse ReadOnlyWrite(0x04, v)` (R121). -/
def execCsrwPending1 (v : Word) (s : State) : Result :=
  s.csrTurn (.instr (.csrwPending1 v)) fun s => .next (s.csrWrite .pending1 v)

/-- CSRW PENDING2: `refuse ReadOnlyWrite(0x08, v)` (R122). -/
def execCsrwPending2 (v : Word) (s : State) : Result :=
  s.csrTurn (.instr (.csrwPending2 v)) fun s => .next (s.csrWrite .pending2 v)

/-- CSRW FIQCONTROL: `refuse FiqControlWrite(v)` (R123). -/
def execCsrwFiqcontrol (v : Word) (s : State) : Result :=
  s.csrTurn (.instr (.csrwFiqcontrol v)) fun s => .next (s.csrWrite .fiqControl v)

/-- CSRW ENABLE1: `HWEN0 <- HWEN0 | v` (R124). -/
def execCsrwEnable1 (v : Word) (s : State) : Result :=
  s.csrTurn (.instr (.csrwEnable1 v)) fun s => .next (s.csrWrite .enable1 v)

/-- CSRW ENABLE2: `HWEN1 <- HWEN1 | v` (R125). -/
def execCsrwEnable2 (v : Word) (s : State) : Result :=
  s.csrTurn (.instr (.csrwEnable2 v)) fun s => .next (s.csrWrite .enable2 v)

/-- CSRW ENABLEBASIC: `HWENB <- HWENB | v` (R126). -/
def execCsrwEnablebasic (v : Word) (s : State) : Result :=
  s.csrTurn (.instr (.csrwEnablebasic v)) fun s => .next (s.csrWrite .enableBasic v)

/-- CSRW DISABLE1: `HWEN0 <- HWEN0 & ~v` (R127). -/
def execCsrwDisable1 (v : Word) (s : State) : Result :=
  s.csrTurn (.instr (.csrwDisable1 v)) fun s => .next (s.csrWrite .disable1 v)

/-- CSRW DISABLE2: `HWEN1 <- HWEN1 & ~v` (R128). -/
def execCsrwDisable2 (v : Word) (s : State) : Result :=
  s.csrTurn (.instr (.csrwDisable2 v)) fun s => .next (s.csrWrite .disable2 v)

/-- CSRW DISABLEBASIC: `HWENB <- HWENB & ~v` (R129). -/
def execCsrwDisablebasic (v : Word) (s : State) : Result :=
  s.csrTurn (.instr (.csrwDisablebasic v)) fun s => .next (s.csrWrite .disableBasic v)

end Sys2Proof.Machine
end

