-- ==== Sys2Proof/Machine/Dispatcher.lean ====
section
/-! DEFINITION. The dispatcher's entry, steps and handler return, and the environment's input change (42_dispatch.md). -/

namespace Sys2Proof.Machine

/-- ENTRY (R160). -/
def execEntry (s : State) : Result := s.turn (.instr .entry) s.entryGuard fun s => .next s.takeEntry

/-- S_BSR (R162). -/
def execSBsr (s : State) : Result := s.turn (.instr .sBsr) s.bsrGuard fun s => .next s.snapshot

/-- S_LOAD (R164). -/
def execSLoad (s : State) : Result := s.turn (.instr .sLoad) s.loadGuard fun s => s.inBank fun b => .next (s.loadBank b)

/-- S_SELECT (R166). -/
def execSSelect (s : State) : Result := s.turn (.instr .sSelect) s.selectGuard fun s => s.inBank fun b => s.selectIn b

/-- S_DONE (R167). -/
def execSDone (s : State) : Result :=
  s.turn (.instr .sDone) s.doneGuard fun s => s.inBank fun b => .next (s.leaveBank b)

/-- HRET: HANDLER's alone, so it is not offered while AWAIT = 0 (R169). -/
def execHret (s : State) : Result := if s.hretGuard then .next s.handlerReturn else .next s

/-- ENV: the inputs take the payload, nothing else changes; a payload that SUMMARY_COHERENT rules out is not offered
(R171; log 3). -/
def execEnv (basic pend1 pend2 : Word) (s : State) : Result :=
  if envGuard basic pend1 pend2 then .next { s with inBasic := basic, inPend1 := pend1, inPend2 := pend2 }
  else .next s

end Sys2Proof.Machine
end

