-- ==== Sys2Proof/Machine/Dispatch.lean ====
section
/-! DEFINITION. One arm per operation, each one call of its meaning. -/

namespace Sys2Proof.Machine

def exec (i : Instr) (s : State) : Host.Outcome State Fault Refusal :=
  match i with
  | .csrrIrqbasic => Sys2Proof.Machine.execCsrrIrqbasic s
  | .csrrPending1 => Sys2Proof.Machine.execCsrrPending1 s
  | .csrrPending2 => Sys2Proof.Machine.execCsrrPending2 s
  | .csrrFiqcontrol => Sys2Proof.Machine.execCsrrFiqcontrol s
  | .csrrEnable1 => Sys2Proof.Machine.execCsrrEnable1 s
  | .csrrEnable2 => Sys2Proof.Machine.execCsrrEnable2 s
  | .csrrEnablebasic => Sys2Proof.Machine.execCsrrEnablebasic s
  | .csrrDisable1 => Sys2Proof.Machine.execCsrrDisable1 s
  | .csrrDisable2 => Sys2Proof.Machine.execCsrrDisable2 s
  | .csrrDisablebasic => Sys2Proof.Machine.execCsrrDisablebasic s
  | .csrwIrqbasic v => Sys2Proof.Machine.execCsrwIrqbasic v s
  | .csrwPending1 v => Sys2Proof.Machine.execCsrwPending1 v s
  | .csrwPending2 v => Sys2Proof.Machine.execCsrwPending2 v s
  | .csrwFiqcontrol v => Sys2Proof.Machine.execCsrwFiqcontrol v s
  | .csrwEnable1 v => Sys2Proof.Machine.execCsrwEnable1 v s
  | .csrwEnable2 v => Sys2Proof.Machine.execCsrwEnable2 v s
  | .csrwEnablebasic v => Sys2Proof.Machine.execCsrwEnablebasic v s
  | .csrwDisable1 v => Sys2Proof.Machine.execCsrwDisable1 v s
  | .csrwDisable2 v => Sys2Proof.Machine.execCsrwDisable2 v s
  | .csrwDisablebasic v => Sys2Proof.Machine.execCsrwDisablebasic v s
  | .register irq v handler context => Sys2Proof.Machine.execRegister irq v handler context s
  | .enable irq => Sys2Proof.Machine.execEnable irq s
  | .disable irq => Sys2Proof.Machine.execDisable irq s
  | .block => Sys2Proof.Machine.execBlock s
  | .unblock => Sys2Proof.Machine.execUnblock s
  | .entry => Sys2Proof.Machine.execEntry s
  | .hret => Sys2Proof.Machine.execHret s
  | .env basic pend1 pend2 => Sys2Proof.Machine.execEnv basic pend1 pend2 s
  | .sBsr => Sys2Proof.Machine.execSBsr s
  | .sLoad => Sys2Proof.Machine.execSLoad s
  | .sSelect => Sys2Proof.Machine.execSSelect s
  | .sDone => Sys2Proof.Machine.execSDone s
  | .sCommit => Sys2Proof.Machine.execSCommit s

end Sys2Proof.Machine
end

