-- ==== Sys2Proof/Machine/Fetch.lean ====
section
/-! DEFINITION. Which step comes next: what each agent may do in a state (R31, R161), which offered operation is taken
(log 8), and the internal step that is enabled where none is (log 9). -/

namespace Sys2Proof.Machine

/-- The operation can be taken in this state: its guard holds, or its agent would find a corrupt PHASE (R31, R33). A
command of the HANDLER is taken, and refused (R146). -/
def enabled : Instr → State → Bool
  | .csrrIrqbasic, s => s.findsCorruptPhase || s.issuerGuard
  | .csrrPending1, s => s.findsCorruptPhase || s.issuerGuard
  | .csrrPending2, s => s.findsCorruptPhase || s.issuerGuard
  | .csrrFiqcontrol, s => s.findsCorruptPhase || s.issuerGuard
  | .csrrEnable1, s => s.findsCorruptPhase || s.issuerGuard
  | .csrrEnable2, s => s.findsCorruptPhase || s.issuerGuard
  | .csrrEnablebasic, s => s.findsCorruptPhase || s.issuerGuard
  | .csrrDisable1, s => s.findsCorruptPhase || s.issuerGuard
  | .csrrDisable2, s => s.findsCorruptPhase || s.issuerGuard
  | .csrrDisablebasic, s => s.findsCorruptPhase || s.issuerGuard
  | .csrwIrqbasic _, s => s.findsCorruptPhase || s.issuerGuard
  | .csrwPending1 _, s => s.findsCorruptPhase || s.issuerGuard
  | .csrwPending2 _, s => s.findsCorruptPhase || s.issuerGuard
  | .csrwFiqcontrol _, s => s.findsCorruptPhase || s.issuerGuard
  | .csrwEnable1 _, s => s.findsCorruptPhase || s.issuerGuard
  | .csrwEnable2 _, s => s.findsCorruptPhase || s.issuerGuard
  | .csrwEnablebasic _, s => s.findsCorruptPhase || s.issuerGuard
  | .csrwDisable1 _, s => s.findsCorruptPhase || s.issuerGuard
  | .csrwDisable2 _, s => s.findsCorruptPhase || s.issuerGuard
  | .csrwDisablebasic _, s => s.findsCorruptPhase || s.issuerGuard
  | .register _ _ _ _, s => s.findsCorruptPhase || s.issuerGuard
  | .enable _, s => s.findsCorruptPhase || s.issuerGuard
  | .disable _, s => s.findsCorruptPhase || s.issuerGuard
  | .block, s => s.findsCorruptPhase || s.issuerGuard
  | .unblock, s => s.findsCorruptPhase || s.issuerGuard
  | .entry, s => s.findsCorruptPhase || s.entryGuard
  | .hret, s => s.hretGuard
  | .env basic pend1 pend2, _ => envGuard basic pend1 pend2
  | .sBsr, s => s.findsCorruptPhase || s.bsrGuard
  | .sLoad, s => s.findsCorruptPhase || s.loadGuard
  | .sSelect, s => s.findsCorruptPhase || s.selectGuard
  | .sDone, s => s.findsCorruptPhase || s.doneGuard
  | .sCommit, s => s.findsCorruptPhase || s.commitGuard

/-- The agent of an issuer. -/
def agentOfIssuer : Issuer → Agent
  | .thread => .thread
  | .handler => .handler

/-- The agent that offers an operation (R90, R97, R98); none for a code that names no step. -/
def offerAgent : Offer → Option Agent
  | .csr who _ _ _ _ => some (agentOfIssuer who)
  | .cmd who _ _ _ => some (agentOfIssuer who)
  | .evt code _ _ _ =>
    if code = 0x01#8 then some .engine
    else if code = 0x02#8 then some .handler
    else if code = 0x03#8 then some .env
    else none
  | .step label =>
    if label = 0x14#8 then some .thread
    else if 0x10 ≤ label.toNat && label.toNat < 0x14 then some .engine
    else none

/-- A transaction's issuer is the one who may issue now; events and steps name no issuer (R31). -/
def issuerFits : Offer → State → Bool
  | .csr who _ _ _ _, s => who = s.issuer
  | .cmd who _ _ _, s => who = s.issuer
  | .evt _ _ _ _, _ => true
  | .step _, _ => true

/-- An offer that can be taken now. One that decodes to a refusal is taken when its issuer may issue (R70, R96); a code
that names no step never is (R100). -/
def ready (o : Offer) (s : State) : Bool :=
  match decode o with
  | .instr i => issuerFits o s && enabled i s
  | .refuse _ => issuerFits o s && (s.findsCorruptPhase || s.issuerGuard)
  | .noStep => false

/-- The first offer of the list that is ready and whose agent has no earlier offer waiting, with the list less that
offer; `held` are the agents that wait. Each agent's operations keep their order (R78). -/
def pick (s : State) : List (Option Agent) → List Offer → Option (Offer × List Offer)
  | _, [] => none
  | held, o :: os =>
    if !held.contains (offerAgent o) && ready o s then some (o, os)
    else (pick s (offerAgent o :: held) os).map fun p => (p.1, o :: p.2)

/-- The offer taken next, and the offers that stay. -/
def nextOffer (s : State) : Option (Offer × List Offer) := pick s [] s.offers

/-- The step the machine takes of itself where no offer is ready: the ENGINE's one enabled internal step (R161); in Idle
the THREAD's S_COMMIT where one is pending (R143), else the ENTRY that fairness makes certain (R217, R220). -/
def internalStep (s : State) : Option Instr :=
  if s.awaiting then none
  else
    match s.phase with
    | .idle => if s.tpend ≠ .none then some .sCommit else if !s.gmask && s.irqLine then some .entry else none
    | .basicStatusRead => some .sBsr
    | .bank0Scan => scanStep s
    | .bank1Scan => scanStep s
    | .bank2Scan => scanStep s
    | .corrupt5 => none
    | .corrupt6 => none
    | .corrupt7 => none
where
  /-- The internal step of a scan phase (R161). -/
  scanStep (s : State) : Option Instr :=
    if !s.loaded then some .sLoad else if s.w = 0#32 then some .sDone else some .sSelect

/-- The machine where no step is enabled: the ENGINE refuses a PHASE of 5, 6 or 7 that it finds (R33; log 13), else the
state stays as it is (R14, R177; log 10). -/
def State.rest (s : State) : State :=
  if s.findsCorruptPhase then s.refuse (.phaseCorrupt s.phase.code) .engineStep else s

/-- A transaction that decodes to a refusal: REFUSED is set (R70, R96, R211). -/
def refuseOffer (r : RefuseReason) (o : Offer) (s : State) : Result :=
  s.csrTurn (.transaction o) fun s => .next (s.refuse r (.transaction o))

/-- s with the guard of an operation made true, where it is not: only the fields that the guard reads change. Used to
place an operation so that the very next step runs it (log 16); no step of the machine uses it. -/
def State.grantTurn (s : State) (i : Instr) : State :=
  if enabled i s then s
  else
    match i with
    | .csrrIrqbasic | .csrrPending1 | .csrrPending2 | .csrrFiqcontrol | .csrrEnable1 | .csrrEnable2 | .csrrEnablebasic
    | .csrrDisable1 | .csrrDisable2 | .csrrDisablebasic => { s with phase := .idle, tpend := .none }
    | .csrwIrqbasic _ | .csrwPending1 _ | .csrwPending2 _ | .csrwFiqcontrol _ | .csrwEnable1 _ | .csrwEnable2 _
    | .csrwEnablebasic _ | .csrwDisable1 _ | .csrwDisable2 _ | .csrwDisablebasic _ =>
      { s with phase := .idle, tpend := .none }
    | .register _ _ _ _ | .enable _ | .disable _ | .block | .unblock => { s with phase := .idle, tpend := .none }
    | .entry => { s with phase := .idle, gmask := false }
    | .hret => { s with awaiting := true }
    | .env _ _ _ => s
    | .sBsr => { s with phase := .basicStatusRead, awaiting := false }
    | .sLoad => { s with phase := scanPhase, loaded := false, awaiting := false }
    | .sSelect =>
      { s with phase := scanPhase, loaded := true, awaiting := false, w := if s.w = 0#32 then bitAt 0 else s.w }
    | .sDone => { s with phase := scanPhase, loaded := true, awaiting := false, w := 0#32 }
    | .sCommit => { s with phase := .idle, tpend := if s.tpend = .none then .set .b0 (bitAt 0) else s.tpend }
where
  /-- The scan phase s is in, else that of bank 0. -/
  scanPhase : Phase := if s.phase.bank.isSome then s.phase else .bank0Scan

end Sys2Proof.Machine
end

