-- ==== Sys2Proof/Machine/Step.lean ====
section
/-! DEFINITION. One step of the machine, and where it finds the operation it runs. -/

namespace Sys2Proof.Machine

/-- Decode an offer and run what it names (R100). -/
def runOffer (o : Offer) (s : State) : Host.Outcome State Fault Refusal :=
  match decode o with
  | .instr i => exec i s
  | .refuse r => refuseOffer r o s
  | .noStep => .next s

/-- One step: the first ready offer is taken off the list and run; where none is ready the enabled internal step is
taken; where none is enabled a corrupt PHASE is refused, else the state stays as it is, for ever if nothing is offered
(R31, R33, R177; log 8, 9, 10, 13). -/
def step (s : State) : Host.Outcome State Fault Refusal :=
  match nextOffer s with
  | some (o, rest) => runOffer o { s with offers := rest }
  | none =>
    match internalStep s with
    | some i => exec i s
    | none => .next s.rest

/-- s with the operation of a table row's bits offered first, by the agent whose turn it is, and with that operation's
guard true, so that the next step runs it (log 16). -/
def State.withFetchWord (s : State) (nbits w : Nat) : State :=
  match decode (tableOffer s.issuer nbits w) with
  | .instr i => { s.grantTurn i with offers := tableOffer s.issuer nbits w :: s.offers }
  | .refuse _ => { s with offers := tableOffer s.issuer nbits w :: s.offers }
  | .noStep => { s with offers := tableOffer s.issuer nbits w :: s.offers }

end Sys2Proof.Machine
end

