-- ==== Sys2Proof/Machine/Pseudo.lean ====
section
/-! DEFINITION. The pseudo-operations of R102, each a list of operations of THREAD, and the ENV line of R101. -/

namespace Sys2Proof.Machine

/-- The pseudo-operations (R102). -/
inductive Pseudo where
  /-- `register(irq, h, ctx)`, the handler absent for null. -/
  | register (irq : BitVec 8) (handler : Option Word) (context : Word)
  /-- `UNREGISTER #irq`. -/
  | unregister (irq : BitVec 8)
  /-- `enable(irq)`, followed by its S_COMMIT. -/
  | enable (irq : BitVec 8)
  /-- `disable(irq)`, followed by its S_COMMIT. -/
  | disable (irq : BitVec 8)
  /-- `block()`. -/
  | block
  /-- `unblock()`. -/
  | unblock
  /-- `SAFE_ENABLE #irq`. -/
  | safeEnable (irq : BitVec 8)
  /-- `SAFE_DISABLE #irq`. -/
  | safeDisable (irq : BitVec 8)
deriving DecidableEq, Repr

/-- The expansions (R102). The S_COMMIT of ENABLE and DISABLE is a step of its own, taken when THREAD next steps. -/
def Pseudo.expand : Pseudo → List Instr
  | .register irq (some h) ctx => [.register irq true h ctx]
  | .register irq none ctx => [.register irq false 0#32 ctx]
  | .unregister irq => [.register irq false 0#32 0#32]
  | .enable irq => [.enable irq]
  | .disable irq => [.disable irq]
  | .block => [.block]
  | .unblock => [.unblock]
  | .safeEnable irq => [.block, .enable irq, .unblock]
  | .safeDisable irq => [.block, .disable irq, .unblock]

/-- `@ENV basic=…, pend1=…, pend2=…`: "omitted fields unchanged" (R101). -/
def envLine (s : State) (basic pend1 pend2 : Option Word) : Instr :=
  .env (basic.getD s.inBasic) (pend1.getD s.inPend1) (pend2.getD s.inPend2)

end Sys2Proof.Machine
end

