-- ==== Sys2Proof/Safety.lean ====
section
/-! DEFINITION. The terms that claims are stated in: who may act, the invariant of the engine's reachable states, the
calls an entry emits (R175), and an entry run with no input change. -/

namespace Sys2Proof.Machine

/-! ### Who may act (R31) -/

/-- A CSR access may be issued: by HANDLER while AWAIT = 1, by THREAD in Idle with no commit pending. -/
def State.mayIssue (s : State) : Prop := s.awaiting = true ∨ (s.phase = .idle ∧ s.tpend = .none)

/-- THREAD may issue a command. -/
def State.threadMayCommand (s : State) : Prop := s.awaiting = false ∧ s.phase = .idle ∧ s.tpend = .none

/-- The scan of bank b is the current one and no handler call is outstanding. -/
def State.scanning (s : State) (b : Bank) : Prop := s.phase.bank = some b ∧ s.awaiting = false

/-- The steps of the engine's own table (R161): its five, and the handler's return. -/
def dispatcherSteps : List Instr := [.entry, .sBsr, .sLoad, .sSelect, .sDone, .hret]

/-- The CSR operations (R92). -/
def isCsrOperation (i : Instr) : Prop := (encode .thread i).format = .csr

/-- The commands (R94). -/
def isCommand (i : Instr) : Prop := (encode .thread i).format = .cmd

/-! ### The invariant -/

/-- The number of lines of a bank (R6). -/
def bankLines : Bank → Nat
  | .b0 => 32
  | .b1 => 32
  | .b2 => 8

/-- The mask of a pending commit is the one bit of a line of its bank (R141, R142). -/
def TPend.oneLine : TPend → Prop
  | .none => True
  | .set b m => ∃ k, k < bankLines b ∧ m = bitAt k
  | .clr b m => ∃ k, k < bankLines b ∧ m = bitAt k

/-- What holds of every state the engine reaches. -/
structure EngineInv (s : State) : Prop where
  /-- PHASE is one of the five phases (R33). -/
  phaseLegal : s.phase.isCorrupt = false
  /-- W is loaded only in a scan phase (R34, R161). -/
  loadedInScan : s.loaded = true → s.phase.bank.isSome = true
  /-- A handler call is outstanding only while its bank is loaded (R34). -/
  awaitLoaded : s.awaiting = true → s.loaded = true
  /-- The outstanding call's bit is still in W (R166, R169). -/
  awaitBit : s.awaiting = true → s.w.getLsbD s.curBit.toNat = true
  /-- "In bank 2, k ≤ 7 because W[31:8] = 0" (R166). -/
  bank2Narrow : s.phase = .bank2Scan → s.loaded = true → s.w &&& ~~~0xFF#32 = 0#32
  /-- W holds no bit that the bank's shadow mask filters out (R164, R173). -/
  filtered : ∀ b, s.phase.bank = some b → s.loaded = true → s.w &&& ~~~(s.shadow b) = 0#32
  /-- "Bits 31:8 of SHADOW[2] can never become 1" (R51). -/
  shadow2Narrow : s.shadow2 &&& ~~~0xFF#32 = 0#32
  /-- A pending commit is for one line (R141). -/
  pendOneLine : s.tpend.oneLine
  /-- An empty entry's handler is 0 (R95, R140). -/
  emptyHandlers : ∀ irq e, s.vtEntry irq = some e → e.hvalid = false → e.handler = 0#32
  /-- The inputs are coherent where SUMMARY_COHERENT is set (R53). -/
  inputsCoherent : payloadOffered Config.summaryCoherent s.inBasic s.inPend1 s.inPend2 = true

/-! ### The calls of an entry (R175) -/

/-- The call of line k of a bank, where its entry has a handler. -/
def lineCall (vt : Vector VtEntry 72) (b : Bank) (k : Nat) : List Call :=
  match vt[bankBase b + k]? with
  | some e =>
    if e.hvalid then [{ handler := e.handler, irq := BitVec.ofNat 8 (bankBase b + k), context := e.context }] else []
  | none => []

/-- The calls of the lines of m below n, from the highest down. -/
def callsBelow (vt : Vector VtEntry 72) (b : Bank) (m : Word) : Nat → List Call
  | 0 => []
  | k + 1 => (if m.getLsbD k then lineCall vt b k else []) ++ callsBelow vt b m k

/-- The calls of a masked pending word of a bank, "for k from 31 down to 0". -/
def wordCalls (vt : Vector VtEntry 72) (b : Bank) (m : Word) : List Call := callsBelow vt b m 32

/-- The pending word of a bank: P1, P2, or the snapshot's low byte. -/
def pendingWord (bsnap p1 p2 : Word) : Bank → Word
  | .b0 => p1
  | .b1 => p2
  | .b2 => bsnap &&& 0xFF#32

/-- A bank's share of the calls of an entry. -/
def State.bankCalls (s : State) (bsnap p1 p2 : Word) (b : Bank) : List Call :=
  if summary bsnap b then wordCalls s.vt b (pendingWord bsnap p1 p2 b &&& s.shadow b) else []

/-- The closed form of an entry (R175). -/
def State.entryCalls (s : State) (bsnap p1 p2 : Word) : List Call :=
  s.bankCalls bsnap p1 p2 .b0 ++ s.bankCalls bsnap p1 p2 .b1 ++ s.bankCalls bsnap p1 p2 .b2

/-- W less the bit of the outstanding call: what this bank has still to serve. -/
def State.unserved (s : State) : Word := if s.awaiting then clearBit s.w s.curBit.toNat else s.w

/-- The calls the current bank has still to emit, as the inputs stand. -/
def State.bankLeft (s : State) (b : Bank) : List Call :=
  if s.loaded then wordCalls s.vt b s.unserved else s.bankCalls s.bsnap s.inPend1 s.inPend2 b

/-- The calls the entry in progress has still to emit, as the inputs stand. -/
def State.callsLeft (s : State) : List Call :=
  match s.phase with
  | .basicStatusRead => s.entryCalls s.inBasic s.inPend1 s.inPend2
  | .bank0Scan =>
    s.bankLeft .b0 ++ s.bankCalls s.bsnap s.inPend1 s.inPend2 .b1 ++ s.bankCalls s.bsnap s.inPend1 s.inPend2 .b2
  | .bank1Scan => s.bankLeft .b1 ++ s.bankCalls s.bsnap s.inPend1 s.inPend2 .b2
  | .bank2Scan => s.bankLeft .b2
  | .idle => []
  | .corrupt5 => []
  | .corrupt6 => []
  | .corrupt7 => []

/-! ### Runs -/

/-- The operations run in order, each on the state the one before left. -/
def execAll : List Instr → State → Host.Outcome State Fault Refusal
  | [], s => .next s
  | i :: is, s =>
    match exec i s with
    | .next s' => execAll is s'
    | .fault r => .fault r
    | .refused r => .refused r

/-- Each operation of the list is well-formed and enabled in the state the one before left: a schedule that R31 allows. -/
def isSchedule : List Instr → State → Prop
  | [], _ => True
  | i :: is, s => i.WellFormed ∧ enabled i s = true ∧ ∃ t, exec i s = .next t ∧ isSchedule is t

/-- The offers of a schedule, in its order, each by the issuer in turn. -/
def scheduleOffers : List Instr → State → List Offer
  | [], _ => []
  | i :: is, s =>
    encode s.issuer i ::
      match exec i s with
      | .next t => scheduleOffers is t
      | .fault _ => []
      | .refused _ => []

/-- The one step of an entry in progress whose inputs do not change and whose handlers do nothing but return. -/
def quietStep (s : State) : Host.Outcome State Fault Refusal :=
  if s.awaiting then exec .hret s
  else
    match internalStep s with
    | some i => exec i s
    | none => .next s.rest

/-- At most n such steps, up to the return to Idle. -/
def runEntry : Nat → State → Host.Outcome State Fault Refusal
  | 0, s => .next s
  | n + 1, s =>
    if s.phase = .idle then .next s
    else
      match quietStep s with
      | .next s' => runEntry n s'
      | .fault r => .fault r
      | .refused r => .refused r

end Sys2Proof.Machine
end

