-- ==== Sys2Proof/Certificates/Slice0/Obligations.lean ====
section
/-! DEFINITION. The statements for the provers, each a Prop about the machine of Sys2Proof.core. -/

open Sys2Proof Sys2Proof.Machine

/-! ### Reset and the invariant -/

/-- R59, R240: the value each element of the state has after reset, for every element whose value the spec gives. -/
def Obligations.ResetHoldsTheStatedValues : Prop :=
  State.reset.phase = .idle ∧ State.reset.loaded = false ∧ State.reset.awaiting = false ∧
    State.reset.gmask = true ∧ State.reset.tpend = .none ∧
    State.reset.hwen0 = Config.hwenReset0 ∧ State.reset.hwen1 = Config.hwenReset1 ∧
    State.reset.hwenb = Config.hwenResetB ∧
    (∀ irq, irq < 72 → State.reset.vtEntry irq = some ⟨false, 0#32, 0#32⟩) ∧
    (∀ b, State.reset.shadow b = 0#32) ∧ State.reset.trace = [] ∧ State.reset.refused = none

/-- The reset state meets the invariant. That its inputs are coherent (R53) rests on the model's choice of 0 for them
(log 5): R59 leaves the inputs at reset to ENV. -/
def Obligations.ResetMeetsTheInvariant : Prop := EngineInv State.reset

/-- Every step from a state that meets the invariant leaves one that meets it. -/
def Obligations.EveryStepKeepsTheInvariant : Prop :=
  ∀ s s', EngineInv s → step s = .next s' → EngineInv s'

/-- R168, R210: from a state that meets the invariant the machine never stops; the vector table always has the entry that
S_SELECT reads. -/
def Obligations.NoStepStopsUnderTheInvariant : Prop :=
  ∀ s, EngineInv s → ∃ s', step s = .next s'

/-! ### Encoding -/

/-- Decoding the encoding of a well-formed operation gives it back, whoever issues it. -/
def Obligations.DecodingAnEncodedOperationGivesItBack : Prop :=
  ∀ who i, i.WellFormed → decode (encode who i) = .instr i

/-- No bit of a command word is dropped: the command it decodes to encodes to that very word, and is well-formed. -/
def Obligations.CommandWordsDecodeWithoutLoss : Prop :=
  ∀ who c d0 d1 i, decode (.cmd who c d0 d1) = .instr i →
    i.WellFormed ∧ ∃ e0 e1, encode who i = .cmd who c e0 e1 ∧ decode (.cmd who c e0 e1) = .instr i

/-- R96: the reserved command words, by field, and what offering one does. -/
def Obligations.ReservedCommandWordsAreRefused : Prop :=
  ∀ (c : Word) (who : Issuer) (d0 d1 : Word),
    let op := (c.extractLsb' 28 4).toNat
    let reserved := op = 0 ∨ 6 ≤ op ∨ c.extractLsb' 9 19 ≠ 0#19 ∨ (c.getLsbD 8 = true ∧ op ≠ 1) ∨
      (c.extractLsb' 0 8 ≠ 0#8 ∧ (op = 4 ∨ op = 5))
    (decode (.cmd who c d0 d1) = .refuse (.reservedCommand c) ↔ reserved) ∧
      (¬ reserved → ∃ i, decode (.cmd who c d0 d1) = .instr i) ∧
      (reserved → ∀ s, s.mayIssue →
        runOffer (.cmd who c d0 d1) s =
          .next { s with
            refused := some (s.refused.getD ⟨.reservedCommand c, .transaction (.cmd who c d0 d1)⟩) })

/-- R70: the address decode of a CSR access, SubWord before Unmapped before Misaligned before the register of index
off / 4, and what a refused access does. -/
def Obligations.CsrAddressesDecodeInTheStatedOrder : Prop :=
  ∀ (who : Issuer) (dir : Dir) (addr : Word) (n : Nat) (v : Word),
    let off := (addr - Config.intcBase).toNat
    let answer := decode (.csr who dir (.abs addr) n v)
    (n ≠ 4 → answer = .refuse (.subWord addr n)) ∧
      (n = 4 → 0x28 ≤ off → answer = .refuse (.unmapped addr)) ∧
      (n = 4 → off < 0x28 → off % 4 ≠ 0 → answer = .refuse (.misaligned addr)) ∧
      (n = 4 → off < 0x28 → off % 4 = 0 →
        ∃ r, [CsrReg.irqBasic, .pending1, .pending2, .fiqControl, .enable1, .enable2, .enableBasic, .disable1, .disable2,
            .disableBasic][off / 4]? = some r ∧ r.offset.toNat = off ∧ answer = .instr (csrInstr dir r v)) ∧
      (∀ r s, answer = .refuse r → s.mayIssue →
        runOffer (.csr who dir (.abs addr) n v) s =
          .next { s with refused := some (s.refused.getD ⟨r, .transaction (.csr who dir (.abs addr) n v)⟩) })

/-- R13: an access at the address INTC_BASE + off is the access CsrRead(off) or CsrWrite(off, v) names. -/
def Obligations.WindowOffsetsNameAbsoluteAddresses : Prop :=
  ∀ who dir off n v,
    decode (.csr who dir (.abs (Config.intcBase + off)) n v) = decode (.csr who dir (.window off) n v)

/-- Words of each format, written out from R92 to R98, decode to the operations they stand for. -/
def Obligations.SampleWordsDecode : Prop :=
  decode (.cmd .thread 0x10000123#32 0x8000#32 0xC0#32) = .instr (.register 35#8 true 0x8000#32 0xC0#32) ∧
    decode (.cmd .thread 0x10000023#32 0x1234#32 0xC0#32) = .instr (.register 35#8 false 0#32 0xC0#32) ∧
    decode (.cmd .thread 0x200000FF#32 0#32 0#32) = .instr (.enable 255#8) ∧
    decode (.cmd .thread 0x30000000#32 0#32 0#32) = .instr (.disable 0#8) ∧
    decode (.cmd .thread 0x20000123#32 0#32 0#32) = .refuse (.reservedCommand 0x20000123#32) ∧
    decode (.csr .thread .write (.window 0x18#32) 4 0x80#32) = .instr (.csrwEnablebasic 0x80#32) ∧
    decode (.csr .thread .read (.window 0x24#32) 4 0#32) = .instr .csrrDisablebasic ∧
    decode (.evt 0x03#8 0x200#32 0#32 0x8#32) = .instr (.env 0x200#32 0#32 0x8#32) ∧
    decode (.step 0x12#8) = .instr .sSelect ∧ decodeTableWord 7 0x64 = some (.csrwDisablebasic 0#32)

/-! ### The step -/

/-- R78 (log 8): the offer a step takes. The first ready offer that no earlier offer of its agent stands before is run: the
step is exec of the operation it decodes to, on the state with that offer taken off the list and nothing else changed. No
offer is ever taken before an earlier one of its agent; and none is taken exactly where each is not ready or waits behind
one of its agent. -/
def Obligations.StepRunsTheDecodedOperation : Prop :=
  (∀ s before o after i, s.offers = before ++ o :: after → decode o = .instr i → ready o s = true →
      (∀ q ∈ before, offerAgent q ≠ offerAgent o) →
      (∀ pre q post, before = pre ++ q :: post → ready q s = false ∨ ∃ p ∈ pre, offerAgent p = offerAgent q) →
      step s = exec i { s with offers := before ++ after }) ∧
    (∀ s o rest, nextOffer s = some (o, rest) →
      ∃ before after, s.offers = before ++ o :: after ∧ rest = before ++ after ∧ ready o s = true ∧
        ∀ q ∈ before, offerAgent q ≠ offerAgent o) ∧
    ∀ s, nextOffer s = none ↔
      ∀ pre q post, s.offers = pre ++ q :: post → ready q s = false ∨ ∃ p ∈ pre, offerAgent p = offerAgent q

/-- R31, R78: every schedule of enabled operations is a run of the machine, with those operations offered in that order
(log 8). -/
def Obligations.EveryScheduleCanBeOffered : Prop :=
  ∀ is s, s.offers = [] → isSchedule is s →
    ∃ t, execAll is s = .next t ∧ core.run is.length { s with offers := scheduleOffers is s } = .next t

/-- R58, R211: a transaction that decodes to a refusal, offered by its issuer in turn, sets REFUSED to the reason and the
transaction, unless REFUSED is set, and is taken off the list; nothing else changes. -/
def Obligations.StepMarksARefusedTransaction : Prop :=
  ∀ s o os r, s.offers = o :: os → decode o = .refuse r → issuerFits o s = true → s.mayIssue →
    step s = .next { s with offers := os, refused := some (s.refused.getD ⟨r, .transaction o⟩) }

/-- Where no offer can be taken the machine takes its enabled internal step, as log 9 chooses: the ENGINE's, in Idle the
pending S_COMMIT before the ENTRY of an asserted IRQ_LINE; else, and while a handler runs, it stays as it is. -/
def Obligations.AnUnattendedMachineTakesItsInternalStep : Prop :=
  ∀ s, EngineInv s → nextOffer s = none →
    (s.awaiting = true → step s = .next s) ∧
      (s.awaiting = false → s.phase = .basicStatusRead → step s = exec .sBsr s) ∧
      (s.awaiting = false → s.phase.bank.isSome = true → s.loaded = false → step s = exec .sLoad s) ∧
      (s.awaiting = false → s.loaded = true → s.w ≠ 0#32 → step s = exec .sSelect s) ∧
      (s.awaiting = false → s.loaded = true → s.w = 0#32 → step s = exec .sDone s) ∧
      (s.phase = .idle → s.tpend ≠ .none → step s = exec .sCommit s) ∧
      (s.phase = .idle → s.tpend = .none → s.gmask = false → s.irqLine = true → step s = exec .entry s) ∧
      (s.phase = .idle → s.tpend = .none → (s.gmask = true ∨ s.irqLine = false) → step s = .next s)

/-- An operation whose guard is false waits: the state is as it was (log 10). -/
def Obligations.AnOperationThatIsNotEnabledWaits : Prop :=
  ∀ i s, enabled i s = false → exec i s = .next s

/-- R31, R161, R143, R171: when each operation can be taken, in a legal phase. A CSR access or a command, in its issuer's
turn; S_BSR needs AWAIT = 0 besides (log 18). -/
def Obligations.TheGuardsOfTheOperations : Prop :=
  ∀ s, s.phase.isCorrupt = false →
    (∀ i, isCsrOperation i ∨ isCommand i → (enabled i s = true ↔ s.mayIssue)) ∧
      (enabled .entry s = true ↔ s.phase = .idle ∧ s.gmask = false) ∧
      (enabled .sBsr s = true ↔ s.phase = .basicStatusRead ∧ s.awaiting = false) ∧
      (enabled .sLoad s = true ↔ s.phase.bank.isSome = true ∧ s.loaded = false ∧ s.awaiting = false) ∧
      (enabled .sSelect s = true ↔ s.phase.bank.isSome = true ∧ s.loaded = true ∧ s.awaiting = false ∧ s.w ≠ 0#32) ∧
      (enabled .sDone s = true ↔ s.phase.bank.isSome = true ∧ s.loaded = true ∧ s.awaiting = false ∧ s.w = 0#32) ∧
      (enabled .hret s = true ↔ s.awaiting = true) ∧
      (enabled .sCommit s = true ↔ s.phase = .idle ∧ s.tpend ≠ .none) ∧
      (∀ b p1 p2, coherentInputs b p1 p2 = true → enabled (.env b p1 p2) s = true)

/-- R31, R161: of THREAD, HANDLER and the ENGINE's internal steps at most one is enabled, and of the dispatcher's own steps
at most one. -/
def Obligations.AtMostOneAgentIsEnabled : Prop :=
  ∀ s, EngineInv s →
    let thread := s.threadMayCommand ∨ enabled .sCommit s = true
    let handler := enabled .hret s = true
    let engine := enabled .sBsr s = true ∨ enabled .sLoad s = true ∨ enabled .sSelect s = true ∨ enabled .sDone s = true
    ¬(thread ∧ handler) ∧ ¬(thread ∧ engine) ∧ ¬(handler ∧ engine) ∧
      ∀ i ∈ dispatcherSteps, ∀ j ∈ dispatcherSteps, enabled i s = true → enabled j s = true → i = j

/-! ### CSR operations -/

/-- R110 to R112: a read of an input returns it to its issuer and changes nothing else. -/
def Obligations.ReadsOfTheInputsReturnThem : Prop :=
  ∀ s, s.mayIssue →
    exec .csrrIrqbasic s = .next { s with readLog := s.readLog ++ [⟨s.issuer, .irqBasic, s.inBasic⟩] } ∧
      exec .csrrPending1 s = .next { s with readLog := s.readLog ++ [⟨s.issuer, .pending1, s.inPend1⟩] } ∧
      exec .csrrPending2 s = .next { s with readLog := s.readLog ++ [⟨s.issuer, .pending2, s.inPend2⟩] }

/-- R113 to R119: a read of FIQControl or of an enable or disable port returns the next draw, whatever it is, and changes
nothing else. -/
def Obligations.ReadsOfPortsReturnADraw : Prop :=
  ∀ s, s.mayIssue →
    let drawn (r : CsrReg) : State :=
      { s with draws := s.draws + 1, readLog := s.readLog ++ [⟨s.issuer, r, Config.draw s.draws⟩] }
    exec .csrrFiqcontrol s = .next (drawn .fiqControl) ∧ exec .csrrEnable1 s = .next (drawn .enable1) ∧
      exec .csrrEnable2 s = .next (drawn .enable2) ∧ exec .csrrEnablebasic s = .next (drawn .enableBasic) ∧
      exec .csrrDisable1 s = .next (drawn .disable1) ∧ exec .csrrDisable2 s = .next (drawn .disable2) ∧
      exec .csrrDisablebasic s = .next (drawn .disableBasic)

/-- R120 to R123, R211: a write to a read-only register or to FIQControl sets REFUSED to the reason and the operation,
unless REFUSED is set, and changes nothing else. -/
def Obligations.WritesWithoutMeaningOnlyMarkRefused : Prop :=
  ∀ s v, s.mayIssue →
    let marked (r : RefuseReason) (i : Instr) : State := { s with refused := some (s.refused.getD ⟨r, .instr i⟩) }
    exec (.csrwIrqbasic v) s = .next (marked (.readOnlyWrite 0x00#32 v) (.csrwIrqbasic v)) ∧
      exec (.csrwPending1 v) s = .next (marked (.readOnlyWrite 0x04#32 v) (.csrwPending1 v)) ∧
      exec (.csrwPending2 v) s = .next (marked (.readOnlyWrite 0x08#32 v) (.csrwPending2 v)) ∧
      exec (.csrwFiqcontrol v) s = .next (marked (.fiqControlWrite v) (.csrwFiqcontrol v))

/-- R124 to R126: an enable port sets the bits written as 1, leaves those written as 0, and changes nothing else. -/
def Obligations.EnablePortsSetTheWrittenBits : Prop :=
  ∀ s v, s.mayIssue →
    (∃ t, exec (.csrwEnable1 v) s = .next t ∧
        (∀ k, t.hwen0.getLsbD k = (v.getLsbD k || s.hwen0.getLsbD k)) ∧ { t with hwen0 := s.hwen0 } = s) ∧
      (∃ t, exec (.csrwEnable2 v) s = .next t ∧
        (∀ k, t.hwen1.getLsbD k = (v.getLsbD k || s.hwen1.getLsbD k)) ∧ { t with hwen1 := s.hwen1 } = s) ∧
      (∃ t, exec (.csrwEnablebasic v) s = .next t ∧
        (∀ k, t.hwenb.getLsbD k = (v.getLsbD k || s.hwenb.getLsbD k)) ∧ { t with hwenb := s.hwenb } = s)

/-- R127 to R129: a disable port clears the bits written as 1, leaves those written as 0, and changes nothing else. -/
def Obligations.DisablePortsClearTheWrittenBits : Prop :=
  ∀ s v, s.mayIssue →
    (∃ t, exec (.csrwDisable1 v) s = .next t ∧
        (∀ k, t.hwen0.getLsbD k = (s.hwen0.getLsbD k && !v.getLsbD k)) ∧ { t with hwen0 := s.hwen0 } = s) ∧
      (∃ t, exec (.csrwDisable2 v) s = .next t ∧
        (∀ k, t.hwen1.getLsbD k = (s.hwen1.getLsbD k && !v.getLsbD k)) ∧ { t with hwen1 := s.hwen1 } = s) ∧
      (∃ t, exec (.csrwDisablebasic v) s = .next t ∧
        (∀ k, t.hwenb.getLsbD k = (s.hwenb.getLsbD k && !v.getLsbD k)) ∧ { t with hwenb := s.hwenb } = s)

/-- R75, R76: writing a port twice is writing it once, and two writes of one direction compose in either order, for each of
the six ports. -/
def Obligations.PortWritesAreIdempotentAndCommute : Prop :=
  ∀ s v v', s.mayIssue →
    ∀ port ∈ [Instr.csrwEnable1, .csrwEnable2, .csrwEnablebasic, .csrwDisable1, .csrwDisable2, .csrwDisablebasic],
      execAll [port v, port v] s = exec (port v) s ∧
        execAll [port v, port v'] s = execAll [port v', port v] s

/-- R76: writes that set and clear different bits of one bank compose in either order. -/
def Obligations.DisjointSetAndClearCommute : Prop :=
  ∀ s v v', s.mayIssue → v &&& v' = 0#32 →
    execAll [.csrwEnable1 v, .csrwDisable1 v'] s = execAll [.csrwDisable1 v', .csrwEnable1 v] s ∧
      execAll [.csrwEnable2 v, .csrwDisable2 v'] s = execAll [.csrwDisable2 v', .csrwEnable2 v] s ∧
      execAll [.csrwEnablebasic v, .csrwDisablebasic v'] s = execAll [.csrwDisablebasic v', .csrwEnablebasic v] s

/-- R131: no CSR operation writes any state but HWEN0, HWEN1, HWENB and REFUSED (the returned result and the draw counter
are the model's own; the inputs are ENV's). -/
def Obligations.CsrOperationsWriteOnlyHwenAndRefused : Prop :=
  ∀ i s t, isCsrOperation i → exec i s = .next t →
    { t with hwen0 := s.hwen0, hwen1 := s.hwen1, hwenb := s.hwenb, refused := s.refused, readLog := s.readLog,
             draws := s.draws } = s

/-- R54: IRQ_LINE is 1 exactly where some line is pending and enabled in hardware; HWENB[31:8] and IN_BASIC[31:8] do not
count. -/
def Obligations.IrqLineIsAnEnabledPendingLine : Prop :=
  ∀ s : State, s.irqLine = true ↔
    (∃ k, k < 32 ∧ s.inPend1.getLsbD k = true ∧ s.hwen0.getLsbD k = true) ∨
      (∃ k, k < 32 ∧ s.inPend2.getLsbD k = true ∧ s.hwen1.getLsbD k = true) ∨
      (∃ k, k < 8 ∧ s.inBasic.getLsbD k = true ∧ s.hwenb.getLsbD k = true)

/-! ### Commands -/

/-- R140: an in-range REGISTER stores the entry whole, an empty one with handler 0, leaves GMASK = 0, and changes nothing
else, no other entry among it; out of range it changes nothing. -/
def Obligations.RegisterStoresItsEntryAndUnblocks : Prop :=
  ∀ s (irq : BitVec 8) v d0 ctx, s.threadMayCommand →
    (irq.toNat < 72 →
        ∃ t, exec (.register irq v d0 ctx) s = .next t ∧
          t.vtEntry irq.toNat = some { hvalid := v, handler := if v then d0 else 0#32, context := ctx } ∧
          (∀ j, j ≠ irq.toNat → t.vtEntry j = s.vtEntry j) ∧ t.gmask = false ∧
          { t with vt := s.vt, gmask := s.gmask } = s) ∧
      (72 ≤ irq.toNat → exec (.register irq v d0 ctx) s = .next s)

/-- R147: REGISTER, ENABLE and DISABLE of an identifier of 72 or more change nothing. -/
def Obligations.OutOfRangeIdentifiersAreIgnored : Prop :=
  ∀ s (irq : BitVec 8) v d0 ctx, s.threadMayCommand → 72 ≤ irq.toNat →
    exec (.register irq v d0 ctx) s = .next s ∧ exec (.enable irq) s = .next s ∧ exec (.disable irq) s = .next s

/-- R141, R144: the first half of ENABLE, bank by bank: the hardware bit is set and the shadow commit is left pending. -/
def Obligations.EnableWritesTheHardwareFirst : Prop :=
  ∀ s (irq : BitVec 8), s.threadMayCommand →
    let m (k : Nat) : Word := 1#32 <<< k
    (irq.toNat ≤ 31 →
        exec (.enable irq) s =
          .next { s with hwen0 := s.hwen0 ||| m irq.toNat, tpend := .set .b0 (m irq.toNat) }) ∧
      (32 ≤ irq.toNat → irq.toNat ≤ 63 →
        exec (.enable irq) s =
          .next { s with hwen1 := s.hwen1 ||| m (irq.toNat - 32), tpend := .set .b1 (m (irq.toNat - 32)) }) ∧
      (64 ≤ irq.toNat → irq.toNat < 72 →
        exec (.enable irq) s =
          .next { s with hwenb := s.hwenb ||| m (irq.toNat - 64), tpend := .set .b2 (m (irq.toNat - 64)) }) ∧
      (72 ≤ irq.toNat → exec (.enable irq) s = .next s)

/-- R142, R144: the first half of DISABLE, bank by bank: the hardware bit is cleared and the shadow commit is left
pending. -/
def Obligations.DisableWritesTheHardwareFirst : Prop :=
  ∀ s (irq : BitVec 8), s.threadMayCommand →
    let m (k : Nat) : Word := 1#32 <<< k
    (irq.toNat ≤ 31 →
        exec (.disable irq) s =
          .next { s with hwen0 := s.hwen0 &&& ~~~m irq.toNat, tpend := .clr .b0 (m irq.toNat) }) ∧
      (32 ≤ irq.toNat → irq.toNat ≤ 63 →
        exec (.disable irq) s =
          .next { s with hwen1 := s.hwen1 &&& ~~~m (irq.toNat - 32), tpend := .clr .b1 (m (irq.toNat - 32)) }) ∧
      (64 ≤ irq.toNat → irq.toNat < 72 →
        exec (.disable irq) s =
          .next { s with hwenb := s.hwenb &&& ~~~m (irq.toNat - 64), tpend := .clr .b2 (m (irq.toNat - 64)) }) ∧
      (72 ≤ irq.toNat → exec (.disable irq) s = .next s)

/-- R143: S_COMMIT sets or clears the pending mask in its bank's shadow mask, empties TPEND, and changes nothing else. -/
def Obligations.CommitWritesTheShadowMask : Prop :=
  ∀ s b m, s.phase = .idle →
    (s.tpend = .set b m →
        ∃ t, exec .sCommit s = .next t ∧ t.tpend = .none ∧ t.shadow b = s.shadow b ||| m ∧
          (∀ b', b' ≠ b → t.shadow b' = s.shadow b') ∧
          { t with tpend := s.tpend, shadow0 := s.shadow0, shadow1 := s.shadow1, shadow2 := s.shadow2 } = s) ∧
      (s.tpend = .clr b m →
        ∃ t, exec .sCommit s = .next t ∧ t.tpend = .none ∧ t.shadow b = s.shadow b &&& ~~~m ∧
          (∀ b', b' ≠ b → t.shadow b' = s.shadow b') ∧
          { t with tpend := s.tpend, shadow0 := s.shadow0, shadow1 := s.shadow1, shadow2 := s.shadow2 } = s)

/-- R200, R201: BLOCK sets the gate, UNBLOCK clears it, and neither changes anything else. -/
def Obligations.BlockAndUnblockMoveTheGate : Prop :=
  ∀ s, s.threadMayCommand →
    exec .block s = .next { s with gmask := true } ∧ exec .unblock s = .next { s with gmask := false }

/-- R146, R211: a command of the HANDLER, whatever word decodes to it, is refused with that word and the operation, and
changes nothing else. -/
def Obligations.CommandsOfAHandlerAreRefused : Prop :=
  ∀ s who c d0 d1 i, s.awaiting = true → decode (.cmd who c d0 d1) = .instr i →
    exec i s = .next { s with refused := some (s.refused.getD ⟨.commandInHandler c, .instr i⟩) }

/-- R145: ENABLE and DISABLE, each with its S_COMMIT, on the shadow bits: ENABLE sets exactly the line's bit, DISABLE clears
exactly it, and the round trip gives SHADOW back exactly where the bit was 0. -/
def Obligations.EnableThenDisableOnTheShadow : Prop :=
  ∀ s (irq : BitVec 8) b, s.threadMayCommand →
    (b = .b0 ∧ irq.toNat ≤ 31) ∨ (b = .b1 ∧ 32 ≤ irq.toNat ∧ irq.toNat ≤ 63) ∨
      (b = .b2 ∧ 64 ≤ irq.toNat ∧ irq.toNat < 72) →
    (∃ t, execAll [.enable irq, .sCommit] s = .next t ∧ t.threadMayCommand ∧
        ∀ b' k, k < 32 →
          (t.shadow b').getLsbD k = ((s.shadow b').getLsbD k || decide (b' = b ∧ k = irq.toNat % 32))) ∧
      (∃ t, execAll [.disable irq, .sCommit] s = .next t ∧ t.threadMayCommand ∧
        ∀ b' k, k < 32 →
          (t.shadow b').getLsbD k = ((s.shadow b').getLsbD k && !decide (b' = b ∧ k = irq.toNat % 32))) ∧
      (∃ t, execAll [.enable irq, .sCommit, .disable irq, .sCommit] s = .next t ∧
        ((∀ b', t.shadow b' = s.shadow b') ↔ (s.shadow b).getLsbD (irq.toNat % 32) = false) ∧
        (t.shadow b).getLsbD (irq.toNat % 32) = false)

/-- R202: after any sequence of BLOCK, UNBLOCK and in-range REGISTER commands the gate is what the last of them sets; after
none it is as before. -/
def Obligations.TheLastGateCommandDecides : Prop :=
  ∀ (is : List Instr) s, s.threadMayCommand →
    (∀ i ∈ is, i = .block ∨ i = .unblock ∨ ∃ irq v d0 ctx, i = .register irq v d0 ctx ∧ irq.toNat < 72) →
    ∃ t, execAll is s = .next t ∧ t.threadMayCommand ∧
      t.gmask = (match is.getLast? with
        | none => s.gmask
        | some i => decide (i = .block))

/-- R250: with the gate open an ENTRY is taken between ENABLE, or DISABLE, and its S_COMMIT: the line's hardware enable is
already written (1 after ENABLE, 0 after DISABLE), the shadow mask is not, and the commit is still pending. -/
def Obligations.AnEntryFallsInTheEnableWindow : Prop :=
  ∀ s (irq : BitVec 8), s.threadMayCommand → s.gmask = false → irq.toNat < 72 →
    ∀ half ∈ [(Instr.enable irq, true), (Instr.disable irq, false)],
      ∃ u t, exec half.1 s = .next u ∧ execAll [half.1, .entry] s = .next t ∧
        t = { u with phase := .basicStatusRead, loaded := false } ∧
        (irq.toNat ≤ 31 → t.hwen0.getLsbD irq.toNat = half.2) ∧
        (32 ≤ irq.toNat → irq.toNat ≤ 63 → t.hwen1.getLsbD (irq.toNat - 32) = half.2) ∧
        (64 ≤ irq.toNat → t.hwenb.getLsbD (irq.toNat - 64) = half.2) ∧
        t.tpend ≠ .none ∧ (∀ b, t.shadow b = s.shadow b) ∧ enabled .sCommit t = false

/-- R102, R244: SAFE_ENABLE, offered by THREAD, sets the line's hardware and shadow bits within four steps and leaves the
gate open; the S_COMMIT is the machine's own third step (log 9). -/
def Obligations.SafeEnableCompletesInFourSteps : Prop :=
  ∀ s (irq : BitVec 8), s.threadMayCommand → 32 ≤ irq.toNat → irq.toNat ≤ 63 →
    s.offers = (Pseudo.safeEnable irq).expand.map (encode .thread) →
    core.run 4 s =
      .next { s with
        offers := []
        gmask := false
        hwen1 := s.hwen1 ||| 1#32 <<< (irq.toNat - 32)
        shadow1 := s.shadow1 ||| 1#32 <<< (irq.toNat - 32) }

/-! ### The dispatcher -/

/-- R160: ENTRY is taken in Idle with the gate open, and changes PHASE, LOADED and AWAIT alone. In any other legal phase, or
with the gate closed, R160 makes ENTRY impossible; that an ENTRY run there waits is the model's choice (log 10). -/
def Obligations.EntryIsTakenInIdleWithTheGateOpen : Prop :=
  ∀ s,
    (s.phase = .idle → s.gmask = false →
        exec .entry s = .next { s with phase := .basicStatusRead, loaded := false, awaiting := false }) ∧
      (s.phase.isCorrupt = false → (s.phase ≠ .idle ∨ s.gmask = true) → exec .entry s = .next s)

/-- R162: S_BSR takes the snapshot and goes to the scan of bank 0. -/
def Obligations.BasicStatusReadTakesTheSnapshot : Prop :=
  ∀ s, s.phase = .basicStatusRead → s.awaiting = false →
    exec .sBsr s = .next { s with bsnap := s.inBasic, phase := .bank0Scan, loaded := false }

/-- R163, R164: S_LOAD, bank by bank: with the summary set W is the pending word under the shadow mask; with it clear the
bank is skipped and W keeps its value. -/
def Obligations.LoadFiltersThePendingWord : Prop :=
  ∀ s, s.loaded = false → s.awaiting = false →
    (s.phase = .bank0Scan → s.bsnap.getLsbD 8 = true →
        exec .sLoad s = .next { s with w := s.inPend1 &&& s.shadow0, loaded := true }) ∧
      (s.phase = .bank0Scan → s.bsnap.getLsbD 8 = false → exec .sLoad s = .next { s with phase := .bank1Scan }) ∧
      (s.phase = .bank1Scan → s.bsnap.getLsbD 9 = true →
        exec .sLoad s = .next { s with w := s.inPend2 &&& s.shadow1, loaded := true }) ∧
      (s.phase = .bank1Scan → s.bsnap.getLsbD 9 = false → exec .sLoad s = .next { s with phase := .bank2Scan }) ∧
      (s.phase = .bank2Scan → s.bsnap.extractLsb' 0 8 ≠ 0#8 →
        exec .sLoad s = .next { s with w := (s.bsnap.extractLsb' 0 8).setWidth 32 &&& s.shadow2, loaded := true }) ∧
      (s.phase = .bank2Scan → s.bsnap.extractLsb' 0 8 = 0#8 → exec .sLoad s = .next { s with phase := .idle })

/-- R165, R166: S_SELECT takes the highest set bit of W. With a handler registered the CALL is emitted and the bit waits for
the handler's return; with none the bit is cleared and nothing is emitted. -/
def Obligations.SelectServesTheHighestPendingLine : Prop :=
  ∀ s b k e, s.scanning b → s.loaded = true → s.w.getLsbD k = true → (∀ j, k < j → s.w.getLsbD j = false) →
    s.vtEntry (bankBase b + k) = some e →
    (e.hvalid = true →
        exec .sSelect s =
          .next { s with
            trace := s.trace ++ [⟨e.handler, BitVec.ofNat 8 (bankBase b + k), e.context⟩]
            curBit := BitVec.ofNat 5 k
            awaiting := true }) ∧
      (e.hvalid = false →
        ∃ t, exec .sSelect s = .next t ∧ (∀ j, t.w.getLsbD j = (s.w.getLsbD j && decide (j ≠ k))) ∧
          { t with w := s.w } = s)

/-- R169: HRET clears the called bit from W and AWAIT, and changes nothing else. -/
def Obligations.HandlerReturnClearsItsBit : Prop :=
  ∀ s, s.awaiting = true →
    ∃ t, exec .hret s = .next t ∧ t.awaiting = false ∧
      (∀ j, t.w.getLsbD j = (s.w.getLsbD j && decide (j ≠ s.curBit.toNat))) ∧
      { t with awaiting := s.awaiting, w := s.w } = s

/-- R167, R218: S_DONE goes to the next bank, from bank 2 to Idle, and changes PHASE and LOADED alone. -/
def Obligations.DoneGoesToTheNextBank : Prop :=
  ∀ s, s.loaded = true → s.awaiting = false → s.w = 0#32 →
    (s.phase = .bank0Scan → exec .sDone s = .next { s with phase := .bank1Scan, loaded := false }) ∧
      (s.phase = .bank1Scan → exec .sDone s = .next { s with phase := .bank2Scan, loaded := false }) ∧
      (s.phase = .bank2Scan → exec .sDone s = .next { s with phase := .idle, loaded := false })

/-- R171: ENV replaces the three inputs in any state and changes nothing else. A payload is offered unless SUMMARY_COHERENT
is set and the payload breaks it; that one run all the same waits, and changes nothing, is the model's choice (log 3). -/
def Obligations.EnvReplacesTheInputs : Prop :=
  ∀ s (basic pend1 pend2 : Word),
    let coherent := (basic.getLsbD 8 = true ↔ pend1 ≠ 0#32) ∧ (basic.getLsbD 9 = true ↔ pend2 ≠ 0#32)
    let replaced : State := { s with inBasic := basic, inPend1 := pend1, inPend2 := pend2 }
    (coherent → exec (.env basic pend1 pend2) s = .next replaced) ∧
      (¬ coherent → exec (.env basic pend1 pend2) s = .next (if Config.summaryCoherent then s else replaced))

/-- R33: an operation whose agent looks at PHASE and finds 5, 6 or 7 is refused with PhaseCorrupt and changes nothing else
(which operations look is log 13). Where no offer can be taken the ENGINE's step finds it (log 13). -/
def Obligations.ACorruptPhaseIsRefused : Prop :=
  ∀ s, s.awaiting = false → 5 ≤ s.phase.code.toNat →
    let marked (op : Operation) : State :=
      { s with refused := some (s.refused.getD ⟨.phaseCorrupt s.phase.code, op⟩) }
    (∀ i, i ≠ .hret → (∀ b p1 p2, i ≠ .env b p1 p2) → exec i s = .next (marked (.instr i))) ∧
      (nextOffer s = none → step s = .next (marked .engineStep))

/-- R175: the closed form of an entry whose inputs do not change and whose handlers only return: ENTRY and then at most 151
steps lead back to Idle, TRACE gains exactly the closed form's calls, and only BSNAP, W and CUR_BIT changed besides. -/
def Obligations.AQuietEntryEmitsItsClosedForm : Prop :=
  ∀ s, EngineInv s → s.phase = .idle → s.gmask = false →
    ∃ u t, exec .entry s = .next u ∧ runEntry 151 u = .next t ∧ t.phase = .idle ∧
      t.trace = s.trace ++ s.entryCalls s.inBasic s.inPend1 s.inPend2 ∧
      { t with trace := s.trace, bsnap := s.bsnap, w := s.w, curBit := s.curBit } = s

/-- R170, R175: whatever ENV does between them, each step of the dispatcher keeps the calls emitted together with the calls
the entry has still to emit as the inputs stand. -/
def Obligations.DispatcherStepsKeepTheCallsOfTheEntry : Prop :=
  ∀ s t i, EngineInv s → i ∈ [Instr.sBsr, .sLoad, .sSelect, .sDone, .hret] → exec i s = .next t →
    t.trace ++ t.callsLeft = s.trace ++ s.callsLeft

/-- R179: two states that differ in the inputs alone. Once a bank is loaded, S_SELECT, HRET and S_DONE answer, on both, next
states that differ in those inputs alone: the same calls are emitted, and the same bits of W are left. In bank 2 so does
S_LOAD, which reads the snapshot. -/
def Obligations.LateInputChangesLeaveLoadedBanksAlone : Prop :=
  ∀ s (basic pend1 pend2 : Word), EngineInv s →
    let late (t : State) : State := { t with inBasic := basic, inPend1 := pend1, inPend2 := pend2 }
    (s.loaded = true → ∀ i ∈ [Instr.sSelect, .hret, .sDone],
        ∃ t t', exec i s = .next t ∧ exec i (late s) = .next t' ∧ t' = late t ∧ t'.trace = t.trace) ∧
      (s.phase = .bank2Scan →
        ∃ t t', exec .sLoad s = .next t ∧ exec .sLoad (late s) = .next t' ∧ t' = late t ∧ t'.trace = t.trace)

/-- R173: a call is of a line whose shadow bit is 1 and is what VT holds for it, called from the bank PHASE names. -/
def Obligations.EveryCallPassedTheShadowFilter : Prop :=
  ∀ s t i c, EngineInv s → exec i s = .next t → t.trace = s.trace ++ [c] →
    ∃ b k e, s.phase.bank = some b ∧ c.irq.toNat = bankBase b + k ∧ (s.shadow b).getLsbD k = true ∧
      s.vtEntry c.irq.toNat = some e ∧ e.hvalid = true ∧ c.handler = e.handler ∧ c.context = e.context

/-- R170: each bit served leaves a smaller W: the return of a handler, and the skip of a line without one. -/
def Obligations.EveryServedBitShrinksTheWord : Prop :=
  ∀ s t, EngineInv s →
    (s.awaiting = true → exec .hret s = .next t → t.w.toNat < s.w.toNat) ∧
      (s.awaiting = false → s.loaded = true → s.w ≠ 0#32 → exec .sSelect s = .next t →
        t.awaiting = true ∨ t.w.toNat < s.w.toNat)

/-- R220(a), R170: an entry in progress, with nothing offered and no handler running, is back in Idle or has called a
handler within 79 steps of the machine. -/
def Obligations.AnEntryGoesOnToIdleOrAHandler : Prop :=
  ∀ s, EngineInv s → s.offers = [] → s.awaiting = false → s.phase ≠ .idle →
    ∃ n t, n ≤ 79 ∧ core.run n s = .next t ∧ (t.phase = .idle ∨ t.awaiting = true)

/-! ### Whole-machine rules -/

/-- R58: REFUSED keeps the first refusal through every step. -/
def Obligations.TheFirstRefusalIsKept : Prop :=
  ∀ s t r, step s = .next t → s.refused = some r → t.refused = some r

/-- R172: no operation but ENV changes an input. -/
def Obligations.OnlyEnvChangesTheInputs : Prop :=
  ∀ i s t, exec i s = .next t → (∀ b p1 p2, i ≠ .env b p1 p2) →
    t.inBasic = s.inBasic ∧ t.inPend1 = s.inPend1 ∧ t.inPend2 = s.inPend2

/-- R50, R51, R257: VT changes only by a REGISTER of THREAD, SHADOW only by S_COMMIT in Idle. -/
def Obligations.TableAndShadowChangeOnlyByThread : Prop :=
  ∀ i s t, exec i s = .next t →
    (t.vt ≠ s.vt → s.threadMayCommand ∧ ∃ irq v d0 ctx, i = .register irq v d0 ctx ∧ irq.toNat < 72) ∧
      ((∃ b, t.shadow b ≠ s.shadow b) → i = .sCommit ∧ s.phase = .idle)

/-- R36: the gate is set by BLOCK alone and cleared by UNBLOCK and an in-range REGISTER alone. -/
def Obligations.TheGateMovesByThreeCommandsOnly : Prop :=
  ∀ i s t, exec i s = .next t → t.gmask ≠ s.gmask →
    s.threadMayCommand ∧
      ((i = .block ∧ t.gmask = true) ∨ (i = .unblock ∧ t.gmask = false) ∨
        ∃ irq v d0 ctx, i = .register irq v d0 ctx ∧ irq.toNat < 72 ∧ t.gmask = false)

/-- R219, R160: an entry begins by ENTRY alone, from Idle, with the gate open: entries never nest. -/
def Obligations.EntriesNeverNest : Prop :=
  ∀ i s t, exec i s = .next t → t.phase = .basicStatusRead → s.phase ≠ .basicStatusRead →
    i = .entry ∧ s.phase = .idle ∧ s.gmask = false

/-- R57: a step appends at most one event to TRACE and removes none; no operation but S_SELECT appends any. -/
def Obligations.TraceGrowsBySelectAlone : Prop :=
  (∀ s t, step s = .next t → t.trace = s.trace ∨ ∃ c, t.trace = s.trace ++ [c]) ∧
    ∀ i s t, exec i s = .next t → i ≠ .sSelect → t.trace = s.trace

/-- R242: while every shadow mask is 0, no commit of an ENABLE is pending and no word with a bit is loaded, every operation
but ENABLE keeps it so and emits no CALL. -/
def Obligations.NoCallBeforeTheFirstEnable : Prop :=
  let quiet (s : State) : Prop :=
    (∀ b, s.shadow b = 0#32) ∧ (∀ b m, s.tpend ≠ .set b m) ∧ (s.loaded = true → s.w = 0#32) ∧ s.awaiting = false
  quiet State.reset ∧
    ∀ i s t, quiet s → (∀ irq, i ≠ .enable irq) → exec i s = .next t → quiet t ∧ t.trace = s.trace

/-- R177: while a handler has not returned, no operation but HRET changes anything but HWEN, the inputs and REFUSED (and the
model's own record of reads). -/
def Obligations.AHandlerThatDoesNotReturnHoldsTheEngine : Prop :=
  ∀ i s t, EngineInv s → s.awaiting = true → i ≠ .hret → exec i s = .next t →
    { t with hwen0 := s.hwen0, hwen1 := s.hwen1, hwenb := s.hwenb, inBasic := s.inBasic, inPend1 := s.inPend1,
             inPend2 := s.inPend2, refused := s.refused, readLog := s.readLog, draws := s.draws } = s

/-- R203: in Idle with the gate closed, no operation but a command and S_COMMIT changes anything but HWEN, the inputs and
REFUSED (and the model's own record of reads). -/
def Obligations.AClosedGateLeavesOnlyThread : Prop :=
  ∀ i s t, s.gmask = true → s.phase = .idle → s.awaiting = false → ¬ isCommand i → i ≠ .sCommit → exec i s = .next t →
    { t with hwen0 := s.hwen0, hwen1 := s.hwen1, hwenb := s.hwenb, inBasic := s.inBasic, inPend1 := s.inPend1,
             inPend2 := s.inPend2, refused := s.refused, readLog := s.readLog, draws := s.draws } = s
end

