-- ==== Sys2Proof/Laws/Operands.lean ====
section
/-! SUPPORT. What the operand primitives answer: single bits, the priority encoder, bank selection. -/

namespace Sys2Proof.Machine

@[simp] theorem bitAt_getLsbD (k j : Nat) : (bitAt k).getLsbD j = (decide (j < 32) && decide (j = k)) := by
  unfold bitAt
  rw [BitVec.getLsbD_shiftLeft, BitVec.getLsbD_one]
  rcases Nat.lt_trichotomy j k with h | h | h
  · simp [h]; omega
  · subst h; simp
  · have h1 : j - k ≠ 0 := by omega
    have h2 : j ≠ k := by omega
    simp [h1, h2]

/-- R168: "`W & ~(1 << k)` clears exactly bit k". -/
@[simp] theorem clearBit_getLsbD (w : Word) (k j : Nat) :
    (clearBit w k).getLsbD j = (w.getLsbD j && !decide (j = k)) := by
  unfold clearBit
  by_cases h : j < 32
  · rw [BitVec.getLsbD_and, BitVec.getLsbD_not, bitAt_getLsbD]; simp [h]
  · simp [BitVec.getLsbD_of_ge _ _ (Nat.le_of_not_lt h)]

/-- A word is 0 when none of its bits is set. -/
theorem word_eq_zero_of_bits (w : Word) (h : ∀ j, j < 32 → w.getLsbD j = false) : w = 0#32 :=
  BitVec.eq_of_getLsbD_eq fun i hi => by simpa using h i hi

theorem msbBelow_le (w : Word) (n : Nat) : msbBelow w n ≤ n := by
  induction n with
  | zero => simp [msbBelow]
  | succ n ih => unfold msbBelow; split <;> omega

theorem msbBelow_clear (w : Word) (n j : Nat) (hj : msbBelow w n < j) (hn : j ≤ n) : w.getLsbD j = false := by
  induction n with
  | zero => omega
  | succ n ih =>
    unfold msbBelow at hj
    split at hj
    · omega
    · rename_i h
      by_cases hjn : j = n + 1
      · subst hjn; simpa using h
      · exact ih hj (by omega)

theorem msbBelow_set (w : Word) (n : Nat) (h : ∃ j, j ≤ n ∧ w.getLsbD j = true) :
    w.getLsbD (msbBelow w n) = true := by
  induction n with
  | zero =>
    obtain ⟨j, hj, hb⟩ := h
    have : j = 0 := by omega
    subst this; simpa [msbBelow] using hb
  | succ n ih =>
    unfold msbBelow
    split
    · assumption
    · rename_i hn
      obtain ⟨j, hj, hb⟩ := h
      refine ih ⟨j, ?_, hb⟩
      by_cases hjn : j = n + 1
      · subst hjn; exact absurd hb hn
      · omega

/-- k ≤ 31 (R168). -/
theorem msb32_lt (w : Word) : msb32 w < 32 := by
  have := msbBelow_le w 31
  unfold msb32; omega

/-- The bit msb32 names is set, in a word that is not 0 (R11). -/
theorem msb32_set (w : Word) (h : w ≠ 0#32) : w.getLsbD (msb32 w) = true := by
  apply msbBelow_set
  by_contra hc
  push Not at hc
  exact h (word_eq_zero_of_bits w fun j hj => by simpa using hc j (by omega))

/-- Every higher bit is clear (R11). -/
theorem msb32_clear_above (w : Word) (j : Nat) (h : msb32 w < j) : w.getLsbD j = false := by
  by_cases hj : j < 32
  · exact msbBelow_clear w 31 j h (by omega)
  · exact BitVec.getLsbD_of_ge _ _ (Nat.le_of_not_lt hj)

/-- msb32 is the one index that is set with every higher bit clear (R11). -/
theorem msb32_unique (w : Word) (k : Nat) (hk : w.getLsbD k = true) (h : ∀ j, k < j → w.getLsbD j = false) :
    msb32 w = k := by
  have hw : w ≠ 0#32 := by rintro rfl; simp at hk
  rcases Nat.lt_trichotomy (msb32 w) k with hlt | heq | hgt
  · rw [msb32_clear_above w k hlt] at hk; cases hk
  · exact heq
  · have := msb32_set w hw; rw [h _ hgt] at this; cases this

/-- R12's table, one bank per range. -/
theorem bankOfIrq_eq_some (irq : BitVec 8) (b : Bank) :
    bankOfIrq irq = some b ↔
      (b = .b0 ∧ irq.toNat ≤ 31) ∨ (b = .b1 ∧ 32 ≤ irq.toNat ∧ irq.toNat ≤ 63) ∨
        (b = .b2 ∧ 64 ≤ irq.toNat ∧ irq.toNat < 72) := by
  unfold bankOfIrq Config.totalIrq
  constructor
  · intro h
    split at h
    · cases h; simp; omega
    · split at h
      · cases h; simp; omega
      · split at h
        · cases h; simp; omega
        · cases h
  · rintro (⟨rfl, h⟩ | ⟨rfl, h⟩ | ⟨rfl, h⟩)
    · simp [h]
    · rw [if_neg (by omega), if_pos (by omega)]
    · rw [if_neg (by omega), if_neg (by omega), if_pos (by omega)]

/-- An identifier is in no bank exactly where it is 72 or more (R7). -/
theorem bankOfIrq_eq_none (irq : BitVec 8) : bankOfIrq irq = none ↔ 72 ≤ irq.toNat := by
  unfold bankOfIrq Config.totalIrq
  constructor
  · intro h
    split at h
    · cases h
    · split at h
      · cases h
      · split at h
        · cases h
        · omega
  · intro h
    rw [if_neg (by omega), if_neg (by omega), if_neg (by omega)]

/-- A scan phase's bank, and the phase it goes on to, are phases of the table (R161). -/
theorem nextPhase_legal (b : Bank) : (nextPhase b).isCorrupt = false := by cases b <;> rfl

/-- A phase with a bank is not corrupt (R33). -/
theorem Phase.bank_legal {p : Phase} {b : Bank} (h : p.bank = some b) : p.isCorrupt = false := by
  cases p <;> first | rfl | cases h

/-- Which phase scans which bank (R163). -/
theorem Phase.bank_eq_some {p : Phase} {b : Bank} :
    p.bank = some b ↔ (p = .bank0Scan ∧ b = .b0) ∨ (p = .bank1Scan ∧ b = .b1) ∨ (p = .bank2Scan ∧ b = .b2) := by
  cases p <;> cases b <;> simp [Phase.bank]

end Sys2Proof.Machine
end

