-- ==== Sys2Proof/Laws/State.lean ====
section
/-! SUPPORT. One lemma per field per update of State: what each named operation of Machine/Ops.lean leaves in each
field. Fields whose new value depends on the register or bank have their lemmas in Laws/Ops.lean. -/

namespace Sys2Proof.Machine

variable (s : State)

@[simp] theorem State.refuse_phase (r : RefuseReason) (op : Operation) : (s.refuse r op).phase = s.phase := rfl
@[simp] theorem State.refuse_loaded (r : RefuseReason) (op : Operation) : (s.refuse r op).loaded = s.loaded := rfl
@[simp] theorem State.refuse_awaiting (r : RefuseReason) (op : Operation) : (s.refuse r op).awaiting = s.awaiting := rfl
@[simp] theorem State.refuse_bsnap (r : RefuseReason) (op : Operation) : (s.refuse r op).bsnap = s.bsnap := rfl
@[simp] theorem State.refuse_w (r : RefuseReason) (op : Operation) : (s.refuse r op).w = s.w := rfl
@[simp] theorem State.refuse_curBit (r : RefuseReason) (op : Operation) : (s.refuse r op).curBit = s.curBit := rfl
@[simp] theorem State.refuse_gmask (r : RefuseReason) (op : Operation) : (s.refuse r op).gmask = s.gmask := rfl
@[simp] theorem State.refuse_tpend (r : RefuseReason) (op : Operation) : (s.refuse r op).tpend = s.tpend := rfl
@[simp] theorem State.refuse_hwen0 (r : RefuseReason) (op : Operation) : (s.refuse r op).hwen0 = s.hwen0 := rfl
@[simp] theorem State.refuse_hwen1 (r : RefuseReason) (op : Operation) : (s.refuse r op).hwen1 = s.hwen1 := rfl
@[simp] theorem State.refuse_hwenb (r : RefuseReason) (op : Operation) : (s.refuse r op).hwenb = s.hwenb := rfl
@[simp] theorem State.refuse_vt (r : RefuseReason) (op : Operation) : (s.refuse r op).vt = s.vt := rfl
@[simp] theorem State.refuse_shadow0 (r : RefuseReason) (op : Operation) : (s.refuse r op).shadow0 = s.shadow0 := rfl
@[simp] theorem State.refuse_shadow1 (r : RefuseReason) (op : Operation) : (s.refuse r op).shadow1 = s.shadow1 := rfl
@[simp] theorem State.refuse_shadow2 (r : RefuseReason) (op : Operation) : (s.refuse r op).shadow2 = s.shadow2 := rfl
@[simp] theorem State.refuse_inBasic (r : RefuseReason) (op : Operation) : (s.refuse r op).inBasic = s.inBasic := rfl
@[simp] theorem State.refuse_inPend1 (r : RefuseReason) (op : Operation) : (s.refuse r op).inPend1 = s.inPend1 := rfl
@[simp] theorem State.refuse_inPend2 (r : RefuseReason) (op : Operation) : (s.refuse r op).inPend2 = s.inPend2 := rfl
@[simp] theorem State.refuse_trace (r : RefuseReason) (op : Operation) : (s.refuse r op).trace = s.trace := rfl
@[simp] theorem State.refuse_refused (r : RefuseReason) (op : Operation) :
    (s.refuse r op).refused = some (s.refused.getD { reason := r, operation := op }) := rfl
@[simp] theorem State.refuse_draws (r : RefuseReason) (op : Operation) : (s.refuse r op).draws = s.draws := rfl
@[simp] theorem State.refuse_readLog (r : RefuseReason) (op : Operation) : (s.refuse r op).readLog = s.readLog := rfl
@[simp] theorem State.refuse_offers (r : RefuseReason) (op : Operation) : (s.refuse r op).offers = s.offers := rfl

@[simp] theorem State.logRead_phase (r : CsrReg) (v : Word) : (s.logRead r v).phase = s.phase := rfl
@[simp] theorem State.logRead_loaded (r : CsrReg) (v : Word) : (s.logRead r v).loaded = s.loaded := rfl
@[simp] theorem State.logRead_awaiting (r : CsrReg) (v : Word) : (s.logRead r v).awaiting = s.awaiting := rfl
@[simp] theorem State.logRead_bsnap (r : CsrReg) (v : Word) : (s.logRead r v).bsnap = s.bsnap := rfl
@[simp] theorem State.logRead_w (r : CsrReg) (v : Word) : (s.logRead r v).w = s.w := rfl
@[simp] theorem State.logRead_curBit (r : CsrReg) (v : Word) : (s.logRead r v).curBit = s.curBit := rfl
@[simp] theorem State.logRead_gmask (r : CsrReg) (v : Word) : (s.logRead r v).gmask = s.gmask := rfl
@[simp] theorem State.logRead_tpend (r : CsrReg) (v : Word) : (s.logRead r v).tpend = s.tpend := rfl
@[simp] theorem State.logRead_hwen0 (r : CsrReg) (v : Word) : (s.logRead r v).hwen0 = s.hwen0 := rfl
@[simp] theorem State.logRead_hwen1 (r : CsrReg) (v : Word) : (s.logRead r v).hwen1 = s.hwen1 := rfl
@[simp] theorem State.logRead_hwenb (r : CsrReg) (v : Word) : (s.logRead r v).hwenb = s.hwenb := rfl
@[simp] theorem State.logRead_vt (r : CsrReg) (v : Word) : (s.logRead r v).vt = s.vt := rfl
@[simp] theorem State.logRead_shadow0 (r : CsrReg) (v : Word) : (s.logRead r v).shadow0 = s.shadow0 := rfl
@[simp] theorem State.logRead_shadow1 (r : CsrReg) (v : Word) : (s.logRead r v).shadow1 = s.shadow1 := rfl
@[simp] theorem State.logRead_shadow2 (r : CsrReg) (v : Word) : (s.logRead r v).shadow2 = s.shadow2 := rfl
@[simp] theorem State.logRead_inBasic (r : CsrReg) (v : Word) : (s.logRead r v).inBasic = s.inBasic := rfl
@[simp] theorem State.logRead_inPend1 (r : CsrReg) (v : Word) : (s.logRead r v).inPend1 = s.inPend1 := rfl
@[simp] theorem State.logRead_inPend2 (r : CsrReg) (v : Word) : (s.logRead r v).inPend2 = s.inPend2 := rfl
@[simp] theorem State.logRead_trace (r : CsrReg) (v : Word) : (s.logRead r v).trace = s.trace := rfl
@[simp] theorem State.logRead_refused (r : CsrReg) (v : Word) : (s.logRead r v).refused = s.refused := rfl
@[simp] theorem State.logRead_draws (r : CsrReg) (v : Word) : (s.logRead r v).draws = s.draws := rfl
@[simp] theorem State.logRead_readLog (r : CsrReg) (v : Word) : (s.logRead r v).readLog = s.readLog ++ [{ issuer := s.issuer, reg := r, value := v }] :=
  rfl
@[simp] theorem State.logRead_offers (r : CsrReg) (v : Word) : (s.logRead r v).offers = s.offers := rfl

@[simp] theorem State.setVt_phase (irq : Nat) (e : VtEntry) : (s.setVt irq e).phase = s.phase := rfl
@[simp] theorem State.setVt_loaded (irq : Nat) (e : VtEntry) : (s.setVt irq e).loaded = s.loaded := rfl
@[simp] theorem State.setVt_awaiting (irq : Nat) (e : VtEntry) : (s.setVt irq e).awaiting = s.awaiting := rfl
@[simp] theorem State.setVt_bsnap (irq : Nat) (e : VtEntry) : (s.setVt irq e).bsnap = s.bsnap := rfl
@[simp] theorem State.setVt_w (irq : Nat) (e : VtEntry) : (s.setVt irq e).w = s.w := rfl
@[simp] theorem State.setVt_curBit (irq : Nat) (e : VtEntry) : (s.setVt irq e).curBit = s.curBit := rfl
@[simp] theorem State.setVt_gmask (irq : Nat) (e : VtEntry) : (s.setVt irq e).gmask = s.gmask := rfl
@[simp] theorem State.setVt_tpend (irq : Nat) (e : VtEntry) : (s.setVt irq e).tpend = s.tpend := rfl
@[simp] theorem State.setVt_hwen0 (irq : Nat) (e : VtEntry) : (s.setVt irq e).hwen0 = s.hwen0 := rfl
@[simp] theorem State.setVt_hwen1 (irq : Nat) (e : VtEntry) : (s.setVt irq e).hwen1 = s.hwen1 := rfl
@[simp] theorem State.setVt_hwenb (irq : Nat) (e : VtEntry) : (s.setVt irq e).hwenb = s.hwenb := rfl
@[simp] theorem State.setVt_vt (irq : Nat) (e : VtEntry) : (s.setVt irq e).vt = s.vt.setIfInBounds irq e := rfl
@[simp] theorem State.setVt_shadow0 (irq : Nat) (e : VtEntry) : (s.setVt irq e).shadow0 = s.shadow0 := rfl
@[simp] theorem State.setVt_shadow1 (irq : Nat) (e : VtEntry) : (s.setVt irq e).shadow1 = s.shadow1 := rfl
@[simp] theorem State.setVt_shadow2 (irq : Nat) (e : VtEntry) : (s.setVt irq e).shadow2 = s.shadow2 := rfl
@[simp] theorem State.setVt_inBasic (irq : Nat) (e : VtEntry) : (s.setVt irq e).inBasic = s.inBasic := rfl
@[simp] theorem State.setVt_inPend1 (irq : Nat) (e : VtEntry) : (s.setVt irq e).inPend1 = s.inPend1 := rfl
@[simp] theorem State.setVt_inPend2 (irq : Nat) (e : VtEntry) : (s.setVt irq e).inPend2 = s.inPend2 := rfl
@[simp] theorem State.setVt_trace (irq : Nat) (e : VtEntry) : (s.setVt irq e).trace = s.trace := rfl
@[simp] theorem State.setVt_refused (irq : Nat) (e : VtEntry) : (s.setVt irq e).refused = s.refused := rfl
@[simp] theorem State.setVt_draws (irq : Nat) (e : VtEntry) : (s.setVt irq e).draws = s.draws := rfl
@[simp] theorem State.setVt_readLog (irq : Nat) (e : VtEntry) : (s.setVt irq e).readLog = s.readLog := rfl
@[simp] theorem State.setVt_offers (irq : Nat) (e : VtEntry) : (s.setVt irq e).offers = s.offers := rfl

@[simp] theorem State.takeEntry_phase : (s.takeEntry).phase = .basicStatusRead := rfl
@[simp] theorem State.takeEntry_loaded : (s.takeEntry).loaded = false := rfl
@[simp] theorem State.takeEntry_awaiting : (s.takeEntry).awaiting = false := rfl
@[simp] theorem State.takeEntry_bsnap : (s.takeEntry).bsnap = s.bsnap := rfl
@[simp] theorem State.takeEntry_w : (s.takeEntry).w = s.w := rfl
@[simp] theorem State.takeEntry_curBit : (s.takeEntry).curBit = s.curBit := rfl
@[simp] theorem State.takeEntry_gmask : (s.takeEntry).gmask = s.gmask := rfl
@[simp] theorem State.takeEntry_tpend : (s.takeEntry).tpend = s.tpend := rfl
@[simp] theorem State.takeEntry_hwen0 : (s.takeEntry).hwen0 = s.hwen0 := rfl
@[simp] theorem State.takeEntry_hwen1 : (s.takeEntry).hwen1 = s.hwen1 := rfl
@[simp] theorem State.takeEntry_hwenb : (s.takeEntry).hwenb = s.hwenb := rfl
@[simp] theorem State.takeEntry_vt : (s.takeEntry).vt = s.vt := rfl
@[simp] theorem State.takeEntry_shadow0 : (s.takeEntry).shadow0 = s.shadow0 := rfl
@[simp] theorem State.takeEntry_shadow1 : (s.takeEntry).shadow1 = s.shadow1 := rfl
@[simp] theorem State.takeEntry_shadow2 : (s.takeEntry).shadow2 = s.shadow2 := rfl
@[simp] theorem State.takeEntry_inBasic : (s.takeEntry).inBasic = s.inBasic := rfl
@[simp] theorem State.takeEntry_inPend1 : (s.takeEntry).inPend1 = s.inPend1 := rfl
@[simp] theorem State.takeEntry_inPend2 : (s.takeEntry).inPend2 = s.inPend2 := rfl
@[simp] theorem State.takeEntry_trace : (s.takeEntry).trace = s.trace := rfl
@[simp] theorem State.takeEntry_refused : (s.takeEntry).refused = s.refused := rfl
@[simp] theorem State.takeEntry_draws : (s.takeEntry).draws = s.draws := rfl
@[simp] theorem State.takeEntry_readLog : (s.takeEntry).readLog = s.readLog := rfl
@[simp] theorem State.takeEntry_offers : (s.takeEntry).offers = s.offers := rfl

@[simp] theorem State.snapshot_phase : (s.snapshot).phase = .bank0Scan := rfl
@[simp] theorem State.snapshot_loaded : (s.snapshot).loaded = false := rfl
@[simp] theorem State.snapshot_awaiting : (s.snapshot).awaiting = s.awaiting := rfl
@[simp] theorem State.snapshot_bsnap : (s.snapshot).bsnap = s.inBasic := rfl
@[simp] theorem State.snapshot_w : (s.snapshot).w = s.w := rfl
@[simp] theorem State.snapshot_curBit : (s.snapshot).curBit = s.curBit := rfl
@[simp] theorem State.snapshot_gmask : (s.snapshot).gmask = s.gmask := rfl
@[simp] theorem State.snapshot_tpend : (s.snapshot).tpend = s.tpend := rfl
@[simp] theorem State.snapshot_hwen0 : (s.snapshot).hwen0 = s.hwen0 := rfl
@[simp] theorem State.snapshot_hwen1 : (s.snapshot).hwen1 = s.hwen1 := rfl
@[simp] theorem State.snapshot_hwenb : (s.snapshot).hwenb = s.hwenb := rfl
@[simp] theorem State.snapshot_vt : (s.snapshot).vt = s.vt := rfl
@[simp] theorem State.snapshot_shadow0 : (s.snapshot).shadow0 = s.shadow0 := rfl
@[simp] theorem State.snapshot_shadow1 : (s.snapshot).shadow1 = s.shadow1 := rfl
@[simp] theorem State.snapshot_shadow2 : (s.snapshot).shadow2 = s.shadow2 := rfl
@[simp] theorem State.snapshot_inBasic : (s.snapshot).inBasic = s.inBasic := rfl
@[simp] theorem State.snapshot_inPend1 : (s.snapshot).inPend1 = s.inPend1 := rfl
@[simp] theorem State.snapshot_inPend2 : (s.snapshot).inPend2 = s.inPend2 := rfl
@[simp] theorem State.snapshot_trace : (s.snapshot).trace = s.trace := rfl
@[simp] theorem State.snapshot_refused : (s.snapshot).refused = s.refused := rfl
@[simp] theorem State.snapshot_draws : (s.snapshot).draws = s.draws := rfl
@[simp] theorem State.snapshot_readLog : (s.snapshot).readLog = s.readLog := rfl
@[simp] theorem State.snapshot_offers : (s.snapshot).offers = s.offers := rfl

@[simp] theorem State.leaveBank_phase (b : Bank) : (s.leaveBank b).phase = nextPhase b := rfl
@[simp] theorem State.leaveBank_loaded (b : Bank) : (s.leaveBank b).loaded = false := rfl
@[simp] theorem State.leaveBank_awaiting (b : Bank) : (s.leaveBank b).awaiting = s.awaiting := rfl
@[simp] theorem State.leaveBank_bsnap (b : Bank) : (s.leaveBank b).bsnap = s.bsnap := rfl
@[simp] theorem State.leaveBank_w (b : Bank) : (s.leaveBank b).w = s.w := rfl
@[simp] theorem State.leaveBank_curBit (b : Bank) : (s.leaveBank b).curBit = s.curBit := rfl
@[simp] theorem State.leaveBank_gmask (b : Bank) : (s.leaveBank b).gmask = s.gmask := rfl
@[simp] theorem State.leaveBank_tpend (b : Bank) : (s.leaveBank b).tpend = s.tpend := rfl
@[simp] theorem State.leaveBank_hwen0 (b : Bank) : (s.leaveBank b).hwen0 = s.hwen0 := rfl
@[simp] theorem State.leaveBank_hwen1 (b : Bank) : (s.leaveBank b).hwen1 = s.hwen1 := rfl
@[simp] theorem State.leaveBank_hwenb (b : Bank) : (s.leaveBank b).hwenb = s.hwenb := rfl
@[simp] theorem State.leaveBank_vt (b : Bank) : (s.leaveBank b).vt = s.vt := rfl
@[simp] theorem State.leaveBank_shadow0 (b : Bank) : (s.leaveBank b).shadow0 = s.shadow0 := rfl
@[simp] theorem State.leaveBank_shadow1 (b : Bank) : (s.leaveBank b).shadow1 = s.shadow1 := rfl
@[simp] theorem State.leaveBank_shadow2 (b : Bank) : (s.leaveBank b).shadow2 = s.shadow2 := rfl
@[simp] theorem State.leaveBank_inBasic (b : Bank) : (s.leaveBank b).inBasic = s.inBasic := rfl
@[simp] theorem State.leaveBank_inPend1 (b : Bank) : (s.leaveBank b).inPend1 = s.inPend1 := rfl
@[simp] theorem State.leaveBank_inPend2 (b : Bank) : (s.leaveBank b).inPend2 = s.inPend2 := rfl
@[simp] theorem State.leaveBank_trace (b : Bank) : (s.leaveBank b).trace = s.trace := rfl
@[simp] theorem State.leaveBank_refused (b : Bank) : (s.leaveBank b).refused = s.refused := rfl
@[simp] theorem State.leaveBank_draws (b : Bank) : (s.leaveBank b).draws = s.draws := rfl
@[simp] theorem State.leaveBank_readLog (b : Bank) : (s.leaveBank b).readLog = s.readLog := rfl
@[simp] theorem State.leaveBank_offers (b : Bank) : (s.leaveBank b).offers = s.offers := rfl

@[simp] theorem State.callHandler_phase (b : Bank) (k : Nat) (e : VtEntry) : (s.callHandler b k e).phase = s.phase :=
  rfl
@[simp] theorem State.callHandler_loaded (b : Bank) (k : Nat) (e : VtEntry) : (s.callHandler b k e).loaded = s.loaded :=
  rfl
@[simp] theorem State.callHandler_awaiting (b : Bank) (k : Nat) (e : VtEntry) : (s.callHandler b k e).awaiting = true :=
  rfl
@[simp] theorem State.callHandler_bsnap (b : Bank) (k : Nat) (e : VtEntry) : (s.callHandler b k e).bsnap = s.bsnap :=
  rfl
@[simp] theorem State.callHandler_w (b : Bank) (k : Nat) (e : VtEntry) : (s.callHandler b k e).w = s.w := rfl
@[simp] theorem State.callHandler_curBit (b : Bank) (k : Nat) (e : VtEntry) : (s.callHandler b k e).curBit = BitVec.ofNat 5 k :=
  rfl
@[simp] theorem State.callHandler_gmask (b : Bank) (k : Nat) (e : VtEntry) : (s.callHandler b k e).gmask = s.gmask :=
  rfl
@[simp] theorem State.callHandler_tpend (b : Bank) (k : Nat) (e : VtEntry) : (s.callHandler b k e).tpend = s.tpend :=
  rfl
@[simp] theorem State.callHandler_hwen0 (b : Bank) (k : Nat) (e : VtEntry) : (s.callHandler b k e).hwen0 = s.hwen0 :=
  rfl
@[simp] theorem State.callHandler_hwen1 (b : Bank) (k : Nat) (e : VtEntry) : (s.callHandler b k e).hwen1 = s.hwen1 :=
  rfl
@[simp] theorem State.callHandler_hwenb (b : Bank) (k : Nat) (e : VtEntry) : (s.callHandler b k e).hwenb = s.hwenb :=
  rfl
@[simp] theorem State.callHandler_vt (b : Bank) (k : Nat) (e : VtEntry) : (s.callHandler b k e).vt = s.vt := rfl
@[simp] theorem State.callHandler_shadow0 (b : Bank) (k : Nat) (e : VtEntry) : (s.callHandler b k e).shadow0 = s.shadow0 :=
  rfl
@[simp] theorem State.callHandler_shadow1 (b : Bank) (k : Nat) (e : VtEntry) : (s.callHandler b k e).shadow1 = s.shadow1 :=
  rfl
@[simp] theorem State.callHandler_shadow2 (b : Bank) (k : Nat) (e : VtEntry) : (s.callHandler b k e).shadow2 = s.shadow2 :=
  rfl
@[simp] theorem State.callHandler_inBasic (b : Bank) (k : Nat) (e : VtEntry) : (s.callHandler b k e).inBasic = s.inBasic :=
  rfl
@[simp] theorem State.callHandler_inPend1 (b : Bank) (k : Nat) (e : VtEntry) : (s.callHandler b k e).inPend1 = s.inPend1 :=
  rfl
@[simp] theorem State.callHandler_inPend2 (b : Bank) (k : Nat) (e : VtEntry) : (s.callHandler b k e).inPend2 = s.inPend2 :=
  rfl
@[simp] theorem State.callHandler_trace (b : Bank) (k : Nat) (e : VtEntry) : (s.callHandler b k e).trace = s.trace ++ [{ handler := e.handler, irq := BitVec.ofNat 8 (bankBase b + k), context := e.context }] :=
  rfl
@[simp] theorem State.callHandler_refused (b : Bank) (k : Nat) (e : VtEntry) : (s.callHandler b k e).refused = s.refused :=
  rfl
@[simp] theorem State.callHandler_draws (b : Bank) (k : Nat) (e : VtEntry) : (s.callHandler b k e).draws = s.draws :=
  rfl
@[simp] theorem State.callHandler_readLog (b : Bank) (k : Nat) (e : VtEntry) : (s.callHandler b k e).readLog = s.readLog :=
  rfl
@[simp] theorem State.callHandler_offers (b : Bank) (k : Nat) (e : VtEntry) : (s.callHandler b k e).offers = s.offers :=
  rfl

@[simp] theorem State.handlerReturn_phase : (s.handlerReturn).phase = s.phase := rfl
@[simp] theorem State.handlerReturn_loaded : (s.handlerReturn).loaded = s.loaded := rfl
@[simp] theorem State.handlerReturn_awaiting : (s.handlerReturn).awaiting = false := rfl
@[simp] theorem State.handlerReturn_bsnap : (s.handlerReturn).bsnap = s.bsnap := rfl
@[simp] theorem State.handlerReturn_w : (s.handlerReturn).w = clearBit s.w s.curBit.toNat := rfl
@[simp] theorem State.handlerReturn_curBit : (s.handlerReturn).curBit = s.curBit := rfl
@[simp] theorem State.handlerReturn_gmask : (s.handlerReturn).gmask = s.gmask := rfl
@[simp] theorem State.handlerReturn_tpend : (s.handlerReturn).tpend = s.tpend := rfl
@[simp] theorem State.handlerReturn_hwen0 : (s.handlerReturn).hwen0 = s.hwen0 := rfl
@[simp] theorem State.handlerReturn_hwen1 : (s.handlerReturn).hwen1 = s.hwen1 := rfl
@[simp] theorem State.handlerReturn_hwenb : (s.handlerReturn).hwenb = s.hwenb := rfl
@[simp] theorem State.handlerReturn_vt : (s.handlerReturn).vt = s.vt := rfl
@[simp] theorem State.handlerReturn_shadow0 : (s.handlerReturn).shadow0 = s.shadow0 := rfl
@[simp] theorem State.handlerReturn_shadow1 : (s.handlerReturn).shadow1 = s.shadow1 := rfl
@[simp] theorem State.handlerReturn_shadow2 : (s.handlerReturn).shadow2 = s.shadow2 := rfl
@[simp] theorem State.handlerReturn_inBasic : (s.handlerReturn).inBasic = s.inBasic := rfl
@[simp] theorem State.handlerReturn_inPend1 : (s.handlerReturn).inPend1 = s.inPend1 := rfl
@[simp] theorem State.handlerReturn_inPend2 : (s.handlerReturn).inPend2 = s.inPend2 := rfl
@[simp] theorem State.handlerReturn_trace : (s.handlerReturn).trace = s.trace := rfl
@[simp] theorem State.handlerReturn_refused : (s.handlerReturn).refused = s.refused := rfl
@[simp] theorem State.handlerReturn_draws : (s.handlerReturn).draws = s.draws := rfl
@[simp] theorem State.handlerReturn_readLog : (s.handlerReturn).readLog = s.readLog := rfl
@[simp] theorem State.handlerReturn_offers : (s.handlerReturn).offers = s.offers := rfl

@[simp] theorem State.csrRead_phase (r : CsrReg) : (s.csrRead r).phase = s.phase := by cases r <;> rfl
@[simp] theorem State.csrRead_loaded (r : CsrReg) : (s.csrRead r).loaded = s.loaded := by cases r <;> rfl
@[simp] theorem State.csrRead_awaiting (r : CsrReg) : (s.csrRead r).awaiting = s.awaiting := by cases r <;> rfl
@[simp] theorem State.csrRead_bsnap (r : CsrReg) : (s.csrRead r).bsnap = s.bsnap := by cases r <;> rfl
@[simp] theorem State.csrRead_w (r : CsrReg) : (s.csrRead r).w = s.w := by cases r <;> rfl
@[simp] theorem State.csrRead_curBit (r : CsrReg) : (s.csrRead r).curBit = s.curBit := by cases r <;> rfl
@[simp] theorem State.csrRead_gmask (r : CsrReg) : (s.csrRead r).gmask = s.gmask := by cases r <;> rfl
@[simp] theorem State.csrRead_tpend (r : CsrReg) : (s.csrRead r).tpend = s.tpend := by cases r <;> rfl
@[simp] theorem State.csrRead_hwen0 (r : CsrReg) : (s.csrRead r).hwen0 = s.hwen0 := by cases r <;> rfl
@[simp] theorem State.csrRead_hwen1 (r : CsrReg) : (s.csrRead r).hwen1 = s.hwen1 := by cases r <;> rfl
@[simp] theorem State.csrRead_hwenb (r : CsrReg) : (s.csrRead r).hwenb = s.hwenb := by cases r <;> rfl
@[simp] theorem State.csrRead_vt (r : CsrReg) : (s.csrRead r).vt = s.vt := by cases r <;> rfl
@[simp] theorem State.csrRead_shadow0 (r : CsrReg) : (s.csrRead r).shadow0 = s.shadow0 := by cases r <;> rfl
@[simp] theorem State.csrRead_shadow1 (r : CsrReg) : (s.csrRead r).shadow1 = s.shadow1 := by cases r <;> rfl
@[simp] theorem State.csrRead_shadow2 (r : CsrReg) : (s.csrRead r).shadow2 = s.shadow2 := by cases r <;> rfl
@[simp] theorem State.csrRead_inBasic (r : CsrReg) : (s.csrRead r).inBasic = s.inBasic := by cases r <;> rfl
@[simp] theorem State.csrRead_inPend1 (r : CsrReg) : (s.csrRead r).inPend1 = s.inPend1 := by cases r <;> rfl
@[simp] theorem State.csrRead_inPend2 (r : CsrReg) : (s.csrRead r).inPend2 = s.inPend2 := by cases r <;> rfl
@[simp] theorem State.csrRead_trace (r : CsrReg) : (s.csrRead r).trace = s.trace := by cases r <;> rfl
@[simp] theorem State.csrRead_refused (r : CsrReg) : (s.csrRead r).refused = s.refused := by cases r <;> rfl
@[simp] theorem State.csrRead_readLog (r : CsrReg) : (s.csrRead r).readLog = s.readLog ++ [{ issuer := s.issuer, reg := r, value := (s.csrValue r).1 }] :=
  by cases r <;> rfl
@[simp] theorem State.csrRead_offers (r : CsrReg) : (s.csrRead r).offers = s.offers := by cases r <;> rfl

@[simp] theorem State.csrWrite_phase (r : CsrReg) (v : Word) : (s.csrWrite r v).phase = s.phase := by cases r <;> rfl
@[simp] theorem State.csrWrite_loaded (r : CsrReg) (v : Word) : (s.csrWrite r v).loaded = s.loaded :=
  by cases r <;> rfl
@[simp] theorem State.csrWrite_awaiting (r : CsrReg) (v : Word) : (s.csrWrite r v).awaiting = s.awaiting :=
  by cases r <;> rfl
@[simp] theorem State.csrWrite_bsnap (r : CsrReg) (v : Word) : (s.csrWrite r v).bsnap = s.bsnap := by cases r <;> rfl
@[simp] theorem State.csrWrite_w (r : CsrReg) (v : Word) : (s.csrWrite r v).w = s.w := by cases r <;> rfl
@[simp] theorem State.csrWrite_curBit (r : CsrReg) (v : Word) : (s.csrWrite r v).curBit = s.curBit :=
  by cases r <;> rfl
@[simp] theorem State.csrWrite_gmask (r : CsrReg) (v : Word) : (s.csrWrite r v).gmask = s.gmask := by cases r <;> rfl
@[simp] theorem State.csrWrite_tpend (r : CsrReg) (v : Word) : (s.csrWrite r v).tpend = s.tpend := by cases r <;> rfl
@[simp] theorem State.csrWrite_vt (r : CsrReg) (v : Word) : (s.csrWrite r v).vt = s.vt := by cases r <;> rfl
@[simp] theorem State.csrWrite_shadow0 (r : CsrReg) (v : Word) : (s.csrWrite r v).shadow0 = s.shadow0 :=
  by cases r <;> rfl
@[simp] theorem State.csrWrite_shadow1 (r : CsrReg) (v : Word) : (s.csrWrite r v).shadow1 = s.shadow1 :=
  by cases r <;> rfl
@[simp] theorem State.csrWrite_shadow2 (r : CsrReg) (v : Word) : (s.csrWrite r v).shadow2 = s.shadow2 :=
  by cases r <;> rfl
@[simp] theorem State.csrWrite_inBasic (r : CsrReg) (v : Word) : (s.csrWrite r v).inBasic = s.inBasic :=
  by cases r <;> rfl
@[simp] theorem State.csrWrite_inPend1 (r : CsrReg) (v : Word) : (s.csrWrite r v).inPend1 = s.inPend1 :=
  by cases r <;> rfl
@[simp] theorem State.csrWrite_inPend2 (r : CsrReg) (v : Word) : (s.csrWrite r v).inPend2 = s.inPend2 :=
  by cases r <;> rfl
@[simp] theorem State.csrWrite_trace (r : CsrReg) (v : Word) : (s.csrWrite r v).trace = s.trace := by cases r <;> rfl
@[simp] theorem State.csrWrite_draws (r : CsrReg) (v : Word) : (s.csrWrite r v).draws = s.draws := by cases r <;> rfl
@[simp] theorem State.csrWrite_readLog (r : CsrReg) (v : Word) : (s.csrWrite r v).readLog = s.readLog :=
  by cases r <;> rfl
@[simp] theorem State.csrWrite_offers (r : CsrReg) (v : Word) : (s.csrWrite r v).offers = s.offers :=
  by cases r <;> rfl

@[simp] theorem State.setShadow_phase (b : Bank) (v : Word) : (s.setShadow b v).phase = s.phase := by cases b <;> rfl
@[simp] theorem State.setShadow_loaded (b : Bank) (v : Word) : (s.setShadow b v).loaded = s.loaded :=
  by cases b <;> rfl
@[simp] theorem State.setShadow_awaiting (b : Bank) (v : Word) : (s.setShadow b v).awaiting = s.awaiting :=
  by cases b <;> rfl
@[simp] theorem State.setShadow_bsnap (b : Bank) (v : Word) : (s.setShadow b v).bsnap = s.bsnap := by cases b <;> rfl
@[simp] theorem State.setShadow_w (b : Bank) (v : Word) : (s.setShadow b v).w = s.w := by cases b <;> rfl
@[simp] theorem State.setShadow_curBit (b : Bank) (v : Word) : (s.setShadow b v).curBit = s.curBit :=
  by cases b <;> rfl
@[simp] theorem State.setShadow_gmask (b : Bank) (v : Word) : (s.setShadow b v).gmask = s.gmask := by cases b <;> rfl
@[simp] theorem State.setShadow_tpend (b : Bank) (v : Word) : (s.setShadow b v).tpend = s.tpend := by cases b <;> rfl
@[simp] theorem State.setShadow_hwen0 (b : Bank) (v : Word) : (s.setShadow b v).hwen0 = s.hwen0 := by cases b <;> rfl
@[simp] theorem State.setShadow_hwen1 (b : Bank) (v : Word) : (s.setShadow b v).hwen1 = s.hwen1 := by cases b <;> rfl
@[simp] theorem State.setShadow_hwenb (b : Bank) (v : Word) : (s.setShadow b v).hwenb = s.hwenb := by cases b <;> rfl
@[simp] theorem State.setShadow_vt (b : Bank) (v : Word) : (s.setShadow b v).vt = s.vt := by cases b <;> rfl
@[simp] theorem State.setShadow_inBasic (b : Bank) (v : Word) : (s.setShadow b v).inBasic = s.inBasic :=
  by cases b <;> rfl
@[simp] theorem State.setShadow_inPend1 (b : Bank) (v : Word) : (s.setShadow b v).inPend1 = s.inPend1 :=
  by cases b <;> rfl
@[simp] theorem State.setShadow_inPend2 (b : Bank) (v : Word) : (s.setShadow b v).inPend2 = s.inPend2 :=
  by cases b <;> rfl
@[simp] theorem State.setShadow_trace (b : Bank) (v : Word) : (s.setShadow b v).trace = s.trace := by cases b <;> rfl
@[simp] theorem State.setShadow_refused (b : Bank) (v : Word) : (s.setShadow b v).refused = s.refused :=
  by cases b <;> rfl
@[simp] theorem State.setShadow_draws (b : Bank) (v : Word) : (s.setShadow b v).draws = s.draws := by cases b <;> rfl
@[simp] theorem State.setShadow_readLog (b : Bank) (v : Word) : (s.setShadow b v).readLog = s.readLog :=
  by cases b <;> rfl
@[simp] theorem State.setShadow_offers (b : Bank) (v : Word) : (s.setShadow b v).offers = s.offers :=
  by cases b <;> rfl

@[simp] theorem State.commit_phase : (s.commit).phase = s.phase := by
  unfold State.commit; split <;> simp
@[simp] theorem State.commit_loaded : (s.commit).loaded = s.loaded := by
  unfold State.commit; split <;> simp
@[simp] theorem State.commit_awaiting : (s.commit).awaiting = s.awaiting := by
  unfold State.commit; split <;> simp
@[simp] theorem State.commit_bsnap : (s.commit).bsnap = s.bsnap := by
  unfold State.commit; split <;> simp
@[simp] theorem State.commit_w : (s.commit).w = s.w := by
  unfold State.commit; split <;> simp
@[simp] theorem State.commit_curBit : (s.commit).curBit = s.curBit := by
  unfold State.commit; split <;> simp
@[simp] theorem State.commit_gmask : (s.commit).gmask = s.gmask := by
  unfold State.commit; split <;> simp
@[simp] theorem State.commit_tpend : (s.commit).tpend = .none := by
  unfold State.commit; split <;> simp_all
@[simp] theorem State.commit_hwen0 : (s.commit).hwen0 = s.hwen0 := by
  unfold State.commit; split <;> simp
@[simp] theorem State.commit_hwen1 : (s.commit).hwen1 = s.hwen1 := by
  unfold State.commit; split <;> simp
@[simp] theorem State.commit_hwenb : (s.commit).hwenb = s.hwenb := by
  unfold State.commit; split <;> simp
@[simp] theorem State.commit_vt : (s.commit).vt = s.vt := by
  unfold State.commit; split <;> simp
@[simp] theorem State.commit_inBasic : (s.commit).inBasic = s.inBasic := by
  unfold State.commit; split <;> simp
@[simp] theorem State.commit_inPend1 : (s.commit).inPend1 = s.inPend1 := by
  unfold State.commit; split <;> simp
@[simp] theorem State.commit_inPend2 : (s.commit).inPend2 = s.inPend2 := by
  unfold State.commit; split <;> simp
@[simp] theorem State.commit_trace : (s.commit).trace = s.trace := by
  unfold State.commit; split <;> simp
@[simp] theorem State.commit_refused : (s.commit).refused = s.refused := by
  unfold State.commit; split <;> simp
@[simp] theorem State.commit_draws : (s.commit).draws = s.draws := by
  unfold State.commit; split <;> simp
@[simp] theorem State.commit_readLog : (s.commit).readLog = s.readLog := by
  unfold State.commit; split <;> simp
@[simp] theorem State.commit_offers : (s.commit).offers = s.offers := by
  unfold State.commit; split <;> simp

@[simp] theorem State.loadBank_awaiting (b : Bank) : (s.loadBank b).awaiting = s.awaiting := by
  unfold State.loadBank; split <;> rfl
@[simp] theorem State.loadBank_bsnap (b : Bank) : (s.loadBank b).bsnap = s.bsnap := by
  unfold State.loadBank; split <;> rfl
@[simp] theorem State.loadBank_curBit (b : Bank) : (s.loadBank b).curBit = s.curBit := by
  unfold State.loadBank; split <;> rfl
@[simp] theorem State.loadBank_gmask (b : Bank) : (s.loadBank b).gmask = s.gmask := by
  unfold State.loadBank; split <;> rfl
@[simp] theorem State.loadBank_tpend (b : Bank) : (s.loadBank b).tpend = s.tpend := by
  unfold State.loadBank; split <;> rfl
@[simp] theorem State.loadBank_hwen0 (b : Bank) : (s.loadBank b).hwen0 = s.hwen0 := by
  unfold State.loadBank; split <;> rfl
@[simp] theorem State.loadBank_hwen1 (b : Bank) : (s.loadBank b).hwen1 = s.hwen1 := by
  unfold State.loadBank; split <;> rfl
@[simp] theorem State.loadBank_hwenb (b : Bank) : (s.loadBank b).hwenb = s.hwenb := by
  unfold State.loadBank; split <;> rfl
@[simp] theorem State.loadBank_vt (b : Bank) : (s.loadBank b).vt = s.vt := by
  unfold State.loadBank; split <;> rfl
@[simp] theorem State.loadBank_shadow0 (b : Bank) : (s.loadBank b).shadow0 = s.shadow0 := by
  unfold State.loadBank; split <;> rfl
@[simp] theorem State.loadBank_shadow1 (b : Bank) : (s.loadBank b).shadow1 = s.shadow1 := by
  unfold State.loadBank; split <;> rfl
@[simp] theorem State.loadBank_shadow2 (b : Bank) : (s.loadBank b).shadow2 = s.shadow2 := by
  unfold State.loadBank; split <;> rfl
@[simp] theorem State.loadBank_inBasic (b : Bank) : (s.loadBank b).inBasic = s.inBasic := by
  unfold State.loadBank; split <;> rfl
@[simp] theorem State.loadBank_inPend1 (b : Bank) : (s.loadBank b).inPend1 = s.inPend1 := by
  unfold State.loadBank; split <;> rfl
@[simp] theorem State.loadBank_inPend2 (b : Bank) : (s.loadBank b).inPend2 = s.inPend2 := by
  unfold State.loadBank; split <;> rfl
@[simp] theorem State.loadBank_trace (b : Bank) : (s.loadBank b).trace = s.trace := by
  unfold State.loadBank; split <;> rfl
@[simp] theorem State.loadBank_refused (b : Bank) : (s.loadBank b).refused = s.refused := by
  unfold State.loadBank; split <;> rfl
@[simp] theorem State.loadBank_draws (b : Bank) : (s.loadBank b).draws = s.draws := by
  unfold State.loadBank; split <;> rfl
@[simp] theorem State.loadBank_readLog (b : Bank) : (s.loadBank b).readLog = s.readLog := by
  unfold State.loadBank; split <;> rfl
@[simp] theorem State.loadBank_offers (b : Bank) : (s.loadBank b).offers = s.offers := by
  unfold State.loadBank; split <;> rfl

end Sys2Proof.Machine
end

