-- ==== Sys2Proof/Laws/Ops.lean ====
section
/-! SUPPORT. What each shared operation of Machine/Ops.lean can do, said once. -/

namespace Sys2Proof.Machine

/-! ### Turns -/

/-- A turn refuses a corrupt PHASE, or takes its effect where its guard holds, or waits. -/
theorem State.turn_cases {s s' : State} {op : Operation} {g : Bool} {k : State → Result}
    (h : s.turn op g k = .next s') :
    (s.findsCorruptPhase = true ∧ s' = s.refuse (.phaseCorrupt s.phase.code) op) ∨
      (s.findsCorruptPhase = false ∧ g = true ∧ k s = .next s') ∨
      (s.findsCorruptPhase = false ∧ g = false ∧ s' = s) := by
  unfold State.turn at h
  split at h
  · rename_i hc
    exact .inl ⟨hc, by cases h; rfl⟩
  · rename_i hc
    split at h
    · rename_i hg
      exact .inr (.inl ⟨by simpa using hc, hg, h⟩)
    · rename_i hg
      exact .inr (.inr ⟨by simpa using hc, by simpa using hg, by cases h; rfl⟩)

/-- A turn whose guard holds, in a phase that is no corrupt one, is its effect. -/
theorem State.turn_taken {s : State} {op : Operation} {g : Bool} (k : State → Result) (hc : s.findsCorruptPhase = false)
    (hg : g = true) : s.turn op g k = k s := by
  simp [State.turn, hc, hg]

/-- A turn whose guard fails, in a phase that is no corrupt one, waits. -/
theorem State.turn_waits {s : State} {op : Operation} {g : Bool} (k : State → Result) (hc : s.findsCorruptPhase = false)
    (hg : g = false) : s.turn op g k = .next s := by
  simp [State.turn, hc, hg]

/-- A turn in a corrupt phase is refused. -/
theorem State.turn_corrupt {s : State} {op : Operation} {g : Bool} (k : State → Result)
    (hc : s.findsCorruptPhase = true) :
    s.turn op g k = .next (s.refuse (.phaseCorrupt s.phase.code) op) := by
  simp [State.turn, hc]

/-- A CSR access that may be issued is its effect. -/
theorem State.csrTurn_taken {s : State} {op : Operation} (k : State → Result) (hc : s.findsCorruptPhase = false)
    (hg : s.issuerGuard = true) : s.csrTurn op k = k s := State.turn_taken k hc hg

/-- What a CSR access can do. -/
theorem State.csrTurn_cases {s s' : State} {op : Operation} {k : State → Result} (h : s.csrTurn op k = .next s') :
    (s.findsCorruptPhase = true ∧ s' = s.refuse (.phaseCorrupt s.phase.code) op) ∨
      (s.findsCorruptPhase = false ∧ s.issuerGuard = true ∧ k s = .next s') ∨
      (s.findsCorruptPhase = false ∧ s.issuerGuard = false ∧ s' = s) := State.turn_cases h

/-- What a command can do: one case more, the HANDLER's, refused (R146). -/
theorem State.cmdTurn_cases {s s' : State} {i : Instr} {word : Word} {k : State → Result}
    (h : s.cmdTurn i word k = .next s') :
    (s.findsCorruptPhase = true ∧ s' = s.refuse (.phaseCorrupt s.phase.code) (.instr i)) ∨
      (s.awaiting = true ∧ s' = s.refuse (.commandInHandler word) (.instr i)) ∨
      (s.findsCorruptPhase = false ∧ s.awaiting = false ∧ s.phase = .idle ∧ s.tpend = .none ∧ k s = .next s') ∨
      (s.findsCorruptPhase = false ∧ s.issuerGuard = false ∧ s' = s) := by
  rcases State.turn_cases h with h | ⟨hc, hg, hk⟩ | h
  · exact .inl h
  · cases ha : s.awaiting
    · simp only [State.issuerGuard, ha, Bool.false_or, Bool.and_eq_true, decide_eq_true_eq] at hg
      simp only [ha, Bool.false_eq_true, if_false] at hk
      exact .inr (.inr (.inl ⟨hc, rfl, hg.1, hg.2, hk⟩))
    · simp only [ha, if_true] at hk
      exact .inr (.inl ⟨rfl, by cases hk; rfl⟩)
  · exact .inr (.inr (.inr h))

/-- A command of THREAD, in Idle with no commit pending, is its effect. -/
theorem State.cmdTurn_thread {s : State} (i : Instr) (word : Word) (k : State → Result) (ha : s.awaiting = false)
    (hp : s.phase = .idle) (ht : s.tpend = .none) : s.cmdTurn i word k = k s := by
  simp [State.cmdTurn, State.turn, State.findsCorruptPhase, State.issuerGuard, ha, hp, ht, Phase.isCorrupt, Phase.code]

/-- The HANDLER finds no corrupt phase. -/
theorem State.findsCorruptPhase_of_awaiting {s : State} (h : s.awaiting = true) : s.findsCorruptPhase = false := by
  simp [State.findsCorruptPhase, h]

/-- A legal phase is not found corrupt. -/
theorem State.findsCorruptPhase_of_legal {s : State} (h : s.phase.isCorrupt = false) : s.findsCorruptPhase = false := by
  simp [State.findsCorruptPhase, h]

/-! ### CSR accesses -/

/-- A read of an input returns it and draws nothing (R110 to R112). -/
@[simp] theorem State.csrRead_irqBasic (s : State) : s.csrRead .irqBasic = s.logRead .irqBasic s.inBasic := rfl
@[simp] theorem State.csrRead_pending1 (s : State) : s.csrRead .pending1 = s.logRead .pending1 s.inPend1 := rfl
@[simp] theorem State.csrRead_pending2 (s : State) : s.csrRead .pending2 = s.logRead .pending2 s.inPend2 := rfl

/-- A write leaves HWEN0 but for the two ports of bank 0. -/
theorem State.csrWrite_hwen0 (s : State) (r : CsrReg) (v : Word) :
    (s.csrWrite r v).hwen0 =
      if r = .enable1 then s.hwen0 ||| v else if r = .disable1 then s.hwen0 &&& ~~~v else s.hwen0 := by
  cases r <;> rfl

/-- A write leaves HWEN1 but for the two ports of bank 1. -/
theorem State.csrWrite_hwen1 (s : State) (r : CsrReg) (v : Word) :
    (s.csrWrite r v).hwen1 =
      if r = .enable2 then s.hwen1 ||| v else if r = .disable2 then s.hwen1 &&& ~~~v else s.hwen1 := by
  cases r <;> rfl

/-- A write leaves HWENB but for the two ports of bank 2. -/
theorem State.csrWrite_hwenb (s : State) (r : CsrReg) (v : Word) :
    (s.csrWrite r v).hwenb =
      if r = .enableBasic then s.hwenb ||| v else if r = .disableBasic then s.hwenb &&& ~~~v else s.hwenb := by
  cases r <;> rfl

/-- ENABLE and DISABLE write through a port, which refuses nothing. -/
@[simp] theorem State.csrWrite_enablePort_refused (s : State) (b : Bank) (v : Word) :
    (s.csrWrite (enablePort b) v).refused = s.refused := by cases b <;> rfl
@[simp] theorem State.csrWrite_disablePort_refused (s : State) (b : Bank) (v : Word) :
    (s.csrWrite (disablePort b) v).refused = s.refused := by cases b <;> rfl

/-- The source of a bank's pending word (R163). -/
@[simp] theorem State.source_b0 (s : State) : s.source .b0 = s.inPend1 := rfl
@[simp] theorem State.source_b1 (s : State) : s.source .b1 = s.inPend2 := rfl
@[simp] theorem State.source_b2 (s : State) : s.source .b2 = s.bsnap &&& 0xFF#32 := rfl

/-! ### REFUSED -/

/-- REFUSED keeps the first refusal (R58). -/
theorem State.refuse_keeps_first {s : State} {m : RefusedMark} {r : RefuseReason} {op : Operation}
    (h : s.refused = some m) : (s.refuse r op).refused = some m := by simp [h]

/-- No write drops a refusal (R58). -/
theorem State.csrWrite_keeps_refused {s : State} {q : CsrReg} {v : Word} {m : RefusedMark} (h : s.refused = some m) :
    (s.csrWrite q v).refused = some m := by
  cases q <;> simp [State.csrWrite, h]

/-! ### Shadow masks -/

/-- SHADOW[b] <- v writes SHADOW[b] and no other mask. -/
theorem State.setShadow_shadow (s : State) (b b' : Bank) (v : Word) :
    (s.setShadow b v).shadow b' = if b' = b then v else s.shadow b' := by
  cases b <;> cases b' <;> rfl

/-- What the commit leaves in each mask. -/
theorem State.commit_shadow (s : State) (b : Bank) :
    s.commit.shadow b =
      match s.tpend with
      | .none => s.shadow b
      | .set b' m => if b = b' then s.shadow b ||| m else s.shadow b
      | .clr b' m => if b = b' then s.shadow b &&& ~~~m else s.shadow b := by
  cases h : s.tpend with
  | none => simp [State.commit, h]
  | set b' m => simp only [State.commit, h]; cases b <;> cases b' <;> rfl
  | clr b' m => simp only [State.commit, h]; cases b <;> cases b' <;> rfl

/-! ### The scan -/

/-- What S_LOAD of a bank leaves. -/
theorem State.loadBank_cases (s : State) (b : Bank) :
    (summary s.bsnap b = true ∧ s.loadBank b = { s with w := s.source b &&& s.shadow b, loaded := true }) ∨
      (summary s.bsnap b = false ∧ s.loadBank b = s.leaveBank b) := by
  unfold State.loadBank
  split
  · exact .inl ⟨by assumption, rfl⟩
  · rename_i h; exact .inr ⟨by simpa using h, rfl⟩

/-- What S_SELECT in a bank can do: no such entry, a handler called, or an empty entry skipped. -/
theorem State.selectIn_cases (s : State) (b : Bank) :
    (s.vtEntry (bankBase b + msb32 s.w) = none ∧ s.selectIn b = .fault (.vectorIndex (bankBase b + msb32 s.w))) ∨
      (∃ e, s.vtEntry (bankBase b + msb32 s.w) = some e ∧ e.hvalid = true ∧
        s.selectIn b = .next (s.callHandler b (msb32 s.w) e)) ∨
      (∃ e, s.vtEntry (bankBase b + msb32 s.w) = some e ∧ e.hvalid = false ∧
        s.selectIn b = .next { s with w := clearBit s.w (msb32 s.w) }) := by
  unfold State.selectIn
  split
  · rename_i h; exact .inl ⟨h, rfl⟩
  · rename_i e h
    split
    · rename_i hv; exact .inr (.inl ⟨e, h, hv, rfl⟩)
    · rename_i hv; exact .inr (.inr ⟨e, h, by simpa using hv, rfl⟩)

/-- A scan step in bank b's phase. -/
theorem State.inBank_of_bank {s : State} {b : Bank} (k : Bank → Result) (h : s.phase.bank = some b) :
    s.inBank k = k b := by
  simp [State.inBank, h]

/-! ### The vector table -/

/-- VT[j] after a store to VT[irq]. -/
theorem State.vtEntry_setVt (s : State) (irq j : Nat) (e : VtEntry) :
    (s.setVt irq e).vtEntry j = if irq = j then (if irq < 72 then some e else none) else s.vtEntry j := by
  unfold State.vtEntry State.setVt
  simp [Vector.getElem?_setIfInBounds]

/-- VT has an entry exactly below 72 (R50). -/
theorem State.vtEntry_isSome (s : State) (irq : Nat) : (s.vtEntry irq).isSome = decide (irq < 72) := by
  unfold State.vtEntry
  by_cases h : irq < 72
  · simp [h]
  · simp [h]

end Sys2Proof.Machine
end

