-- ==== Sys2Proof/Laws/Fetch.lean ====
section
/-! SUPPORT. Which offer a step takes, and what the step is then. -/

namespace Sys2Proof.Machine

/-- The offer picked is in the list, is ready, is the only one taken off, and its agent is not held and has no earlier
offer (R78). -/
theorem pick_spec {s : State} {held : List (Option Agent)} {os rest : List Offer} {o : Offer}
    (h : pick s held os = some (o, rest)) :
    ready o s = true ∧ offerAgent o ∉ held ∧
      ∃ before after, os = before ++ o :: after ∧ rest = before ++ after ∧
        ∀ q ∈ before, offerAgent q ≠ offerAgent o := by
  induction os generalizing held rest with
  | nil => simp [pick] at h
  | cons q qs ih =>
    unfold pick at h
    split at h
    · rename_i hq
      simp only [Option.some.injEq, Prod.mk.injEq] at h
      obtain ⟨rfl, rfl⟩ := h
      simp only [Bool.and_eq_true, Bool.not_eq_true', List.contains_eq_mem, decide_eq_false_iff_not] at hq
      exact ⟨hq.2, hq.1, [], qs, rfl, rfl, by simp⟩
    · simp only [Option.map_eq_some_iff, Prod.mk.injEq, Prod.exists] at h
      obtain ⟨o', r', hp, rfl, rfl⟩ := h
      obtain ⟨hr, hh, before, after, rfl, rfl, hb⟩ := ih hp
      simp only [List.mem_cons, not_or] at hh
      exact ⟨hr, hh.2, q :: before, after, rfl, rfl, by simpa using ⟨Ne.symm hh.1, hb⟩⟩

/-- An offer is passed over where its agent is held or it is not ready. -/
theorem pick_cons_skip {s : State} {held : List (Option Agent)} {q : Offer} (os : List Offer)
    (h : offerAgent q ∈ held ∨ ready q s = false) :
    pick s held (q :: os) = (pick s (offerAgent q :: held) os).map fun p => (p.1, q :: p.2) := by
  rw [pick, if_neg]
  rcases h with h | h <;> simp [h]

/-- Each offer of a list waits behind one of its agent, or is not ready. -/
def AllWait (s : State) (held : List (Option Agent)) (os : List Offer) : Prop :=
  ∀ pre q post, os = pre ++ q :: post →
    ready q s = false ∨ offerAgent q ∈ held ∨ ∃ p ∈ pre, offerAgent p = offerAgent q

/-- Waiting, offer by offer. -/
theorem allWait_cons {s : State} {held : List (Option Agent)} {q : Offer} {os : List Offer} :
    AllWait s held (q :: os) ↔
      (offerAgent q ∈ held ∨ ready q s = false) ∧ AllWait s (offerAgent q :: held) os := by
  constructor
  · intro h
    refine ⟨by simpa [or_comm] using h [] q os rfl, fun pre r post he => ?_⟩
    rcases h (q :: pre) r post (by rw [he]; rfl) with h | h | ⟨p, hp, ha⟩
    · exact .inl h
    · exact .inr (.inl (by simp [h]))
    · rcases List.mem_cons.1 hp with rfl | hp
      · exact .inr (.inl (by simp [ha]))
      · exact .inr (.inr ⟨p, hp, ha⟩)
  · rintro ⟨hq, h⟩ pre r post he
    cases pre with
    | nil =>
      obtain ⟨rfl, rfl⟩ := List.cons.inj he
      exact hq.elim (fun h => .inr (.inl h)) .inl
    | cons p pre =>
      obtain ⟨rfl, rfl⟩ := List.cons.inj he
      rcases h pre r post rfl with h | h | ⟨p, hp, ha⟩
      · exact .inl h
      · rcases List.mem_cons.1 h with h | h
        · exact .inr (.inr ⟨_, by simp, h.symm⟩)
        · exact .inr (.inl h)
      · exact .inr (.inr ⟨p, by simp [hp], ha⟩)

/-- Offers that wait are passed over, and their agents held. -/
theorem pick_append {s : State} {held : List (Option Agent)} {before : List Offer} (os : List Offer)
    (h : AllWait s held before) :
    pick s held (before ++ os) =
      (pick s ((before.map offerAgent).reverse ++ held) os).map fun p => (p.1, before ++ p.2) := by
  induction before generalizing held with
  | nil => simp
  | cons q qs ih =>
    obtain ⟨hq, hqs⟩ := allWait_cons.1 h
    rw [List.cons_append, pick_cons_skip _ hq, ih hqs]
    simp [Option.map_map, Function.comp_def]

/-- Nothing is picked exactly where every offer waits. -/
theorem pick_eq_none {s : State} {held : List (Option Agent)} {os : List Offer} :
    pick s held os = none ↔ AllWait s held os := by
  induction os generalizing held with
  | nil => simp [pick, AllWait]
  | cons q qs ih =>
    rw [allWait_cons, ← ih]
    by_cases hq : offerAgent q ∈ held ∨ ready q s = false
    · simp [pick_cons_skip _ hq, hq]
    · have hp : pick s held (q :: qs) = some (q, qs) := by
        simp only [not_or, Bool.not_eq_false] at hq
        rw [pick, if_pos]
        simp [hq.1, hq.2]
      simp [hp, hq]

/-- A ready offer at the head of the list is the one taken. -/
theorem nextOffer_head {s : State} {o : Offer} {os : List Offer} (h : s.offers = o :: os) (hr : ready o s = true) :
    nextOffer s = some (o, os) := by
  simp [nextOffer, h, pick, hr]

/-- With nothing offered nothing is taken. -/
theorem nextOffer_nil {s : State} (h : s.offers = []) : nextOffer s = none := by
  simp [nextOffer, h, pick]

/-- What a step can be: an offered operation, an offered refusal, the internal step, or nothing. -/
theorem step_cases (s : State) :
    (∃ o rest i, nextOffer s = some (o, rest) ∧ ready o s = true ∧ decode o = .instr i ∧
        step s = exec i { s with offers := rest }) ∨
      (∃ o rest r, nextOffer s = some (o, rest) ∧ ready o s = true ∧ decode o = .refuse r ∧
        step s = refuseOffer r o { s with offers := rest }) ∨
      (∃ i, nextOffer s = none ∧ internalStep s = some i ∧ step s = exec i s) ∨
      (nextOffer s = none ∧ internalStep s = none ∧ step s = .next s.rest) := by
  unfold step
  split
  · rename_i o rest h
    obtain ⟨hr, -, -⟩ := pick_spec h
    cases hd : decode o with
    | instr i => exact .inl ⟨o, rest, i, h, hr, hd, by simp [runOffer, hd]⟩
    | refuse r => exact .inr (.inl ⟨o, rest, r, h, hr, hd, by simp [runOffer, hd]⟩)
    | noStep => simp [ready, hd] at hr
  · rename_i h
    split
    · rename_i i hi; exact .inr (.inr (.inl ⟨i, h, hi, rfl⟩))
    · exact .inr (.inr (.inr ⟨h, by assumption, rfl⟩))

/-- Where no step is enabled, in a legal phase or while a handler runs, the state stays as it is. -/
theorem State.rest_legal {s : State} (h : s.findsCorruptPhase = false) : s.rest = s := by
  simp [State.rest, h]

/-- Where no step is enabled, at most REFUSED changes: a corrupt PHASE is refused (R33). -/
theorem State.rest_cases (s : State) :
    (s.findsCorruptPhase = true ∧ s.rest = s.refuse (.phaseCorrupt s.phase.code) .engineStep) ∨
      (s.findsCorruptPhase = false ∧ s.rest = s) := by
  cases h : s.findsCorruptPhase <;> simp [State.rest, h]

end Sys2Proof.Machine
end

