-- ==== Sys2Proof/Laws/Exec.lean ====
section
/-! SUPPORT. What an operation can do, said once: the inversion lemma of exec, from which frames and invariants are
derived by cases. -/

namespace Sys2Proof.Machine

/-- The next states an operation can leave, with what each presupposes. -/
inductive Effect (s : State) : Instr → State → Prop
  /-- Some agent but the HANDLER found a PHASE of 5, 6 or 7 (R33). -/
  | corrupt {i} (h : s.findsCorruptPhase = true) (hi : i ≠ .hret) (he : ∀ b p1 p2, i ≠ .env b p1 p2) :
      Effect s i (s.refuse (.phaseCorrupt s.phase.code) (.instr i))
  /-- The guard is false (R14). -/
  | waits {i} (h : enabled i s = false) : Effect s i s
  /-- A CSR read (R110 to R119). -/
  | read {i} (r : CsrReg) (h : s.mayIssue) (hi : ∀ v, i = csrInstr .read r v) : Effect s i (s.csrRead r)
  /-- A CSR write (R120 to R129). -/
  | write (r : CsrReg) (v : Word) (h : s.mayIssue) : Effect s (csrInstr .write r v) (s.csrWrite r v)
  /-- A command of the HANDLER (R146). -/
  | inHandler {i} (c : Word) (h : s.awaiting = true) (hi : isCommand i) :
    Effect s i (s.refuse (.commandInHandler c) (.instr i))
  /-- A command for an identifier of 72 or more (R147). -/
  | ignored {i} (h : s.threadMayCommand) (hi : isCommand i) : Effect s i s
  /-- An in-range REGISTER (R140). -/
  | register (irq : BitVec 8) (v : Bool) (handler context : Word) (h : s.threadMayCommand) (hi : irq.toNat < 72) :
      Effect s (.register irq v handler context)
        { s.setVt irq.toNat { hvalid := v, handler := if v then handler else 0#32, context := context } with
          gmask := false }
  /-- An in-range ENABLE (R141). -/
  | enable (irq : BitVec 8) (b : Bank) (h : s.threadMayCommand) (hi : bankOfIrq irq = some b) :
      Effect s (.enable irq) { s.csrWrite (enablePort b) (bitmask irq) with tpend := .set b (bitmask irq) }
  /-- An in-range DISABLE (R142). -/
  | disable (irq : BitVec 8) (b : Bank) (h : s.threadMayCommand) (hi : bankOfIrq irq = some b) :
      Effect s (.disable irq) { s.csrWrite (disablePort b) (bitmask irq) with tpend := .clr b (bitmask irq) }
  /-- BLOCK (R200). -/
  | block (h : s.threadMayCommand) : Effect s .block { s with gmask := true }
  /-- UNBLOCK (R201). -/
  | unblock (h : s.threadMayCommand) : Effect s .unblock { s with gmask := false }
  /-- ENTRY (R160). -/
  | entry (hp : s.phase = .idle) (hg : s.gmask = false) : Effect s .entry s.takeEntry
  /-- HRET (R169). -/
  | hret (h : s.awaiting = true) : Effect s .hret s.handlerReturn
  /-- ENV (R171). -/
  | env (basic pend1 pend2 : Word) (h : envGuard basic pend1 pend2 = true) :
      Effect s (.env basic pend1 pend2) { s with inBasic := basic, inPend1 := pend1, inPend2 := pend2 }
  /-- S_BSR (R162). -/
  | bsr (hp : s.phase = .basicStatusRead) (ha : s.awaiting = false) : Effect s .sBsr s.snapshot
  /-- S_LOAD with the summary set (R164). -/
  | load (b : Bank) (hp : s.phase.bank = some b) (hl : s.loaded = false) (ha : s.awaiting = false)
      (hs : summary s.bsnap b = true) : Effect s .sLoad { s with w := s.source b &&& s.shadow b, loaded := true }
  /-- S_LOAD with the summary clear (R164). -/
  | skip (b : Bank) (hp : s.phase.bank = some b) (hl : s.loaded = false) (ha : s.awaiting = false)
      (hs : summary s.bsnap b = false) : Effect s .sLoad (s.leaveBank b)
  /-- S_SELECT of a line with a handler (R166). -/
  | call (b : Bank) (e : VtEntry) (hp : s.phase.bank = some b) (hl : s.loaded = true) (ha : s.awaiting = false)
      (hw : s.w ≠ 0#32) (he : s.vtEntry (bankBase b + msb32 s.w) = some e) (hv : e.hvalid = true) :
      Effect s .sSelect (s.callHandler b (msb32 s.w) e)
  /-- S_SELECT of a line without one (R166). -/
  | noHandler (b : Bank) (e : VtEntry) (hp : s.phase.bank = some b) (hl : s.loaded = true) (ha : s.awaiting = false)
      (hw : s.w ≠ 0#32) (he : s.vtEntry (bankBase b + msb32 s.w) = some e) (hv : e.hvalid = false) :
      Effect s .sSelect { s with w := clearBit s.w (msb32 s.w) }
  /-- S_DONE (R167). -/
  | done (b : Bank) (hp : s.phase.bank = some b) (hl : s.loaded = true) (ha : s.awaiting = false) (hw : s.w = 0#32) :
      Effect s .sDone (s.leaveBank b)
  /-- S_COMMIT (R143). -/
  | commit (hp : s.phase = .idle) (ht : s.tpend ≠ .none) : Effect s .sCommit s.commit

/-- The issuer's guard is the right to issue a CSR access. -/
theorem State.issuerGuard_iff (s : State) : s.issuerGuard = true ↔ s.mayIssue := by
  simp [State.issuerGuard, State.mayIssue]

/-- An operation that waits leaves the state as it was. -/
theorem turn_effect {s t : State} {i : Instr} {g : Bool} {k : State → Result} (h : s.turn (.instr i) g k = .next t)
    (hi : i ≠ .hret) (he : ∀ b p1 p2, i ≠ .env b p1 p2) (hen : enabled i s = (s.findsCorruptPhase || g))
    (taken : g = true → k s = .next t → Effect s i t) : Effect s i t := by
  rcases State.turn_cases h with ⟨hc, rfl⟩ | ⟨-, hg, hk⟩ | ⟨hc, hg, rfl⟩
  · exact .corrupt hc hi he
  · exact taken hg hk
  · exact .waits (by rw [hen, hc, hg]; rfl)

/-- A CSR read's effect. -/
theorem read_effect {s t : State} {i : Instr} (r : CsrReg) (hi : ∀ v, i = csrInstr .read r v)
    (hen : enabled i s = (s.findsCorruptPhase || s.issuerGuard))
    (h : (s.csrTurn (.instr i) fun s => .next (s.csrRead r)) = .next t) : Effect s i t := by
  refine turn_effect h ?_ ?_ hen ?_
  · rw [hi 0#32]; cases r <;> simp [csrInstr]
  · intro b p1 p2; rw [hi 0#32]; cases r <;> simp [csrInstr]
  · intro hg hk; cases hk; exact .read r (s.issuerGuard_iff.1 hg) hi

/-- A CSR write's effect. -/
theorem write_effect {s t : State} (r : CsrReg) (v : Word)
    (hen : enabled (csrInstr .write r v) s = (s.findsCorruptPhase || s.issuerGuard))
    (h : (s.csrTurn (.instr (csrInstr .write r v)) fun s => .next (s.csrWrite r v)) = .next t) :
    Effect s (csrInstr .write r v) t := by
  refine turn_effect h ?_ ?_ hen ?_
  · cases r <;> simp [csrInstr]
  · intro b p1 p2; cases r <;> simp [csrInstr]
  · intro hg hk; cases hk; exact .write r v (s.issuerGuard_iff.1 hg)

/-- A command's effect. -/
theorem command_effect {s t : State} {i : Instr} {word : Word} {k : State → Result}
    (h : s.cmdTurn i word k = .next t) (hi : isCommand i)
    (hen : enabled i s = (s.findsCorruptPhase || s.issuerGuard))
    (taken : s.threadMayCommand → k s = .next t → Effect s i t) : Effect s i t := by
  have h1 : i ≠ .hret := by rintro rfl; cases hi
  have h2 : ∀ b p1 p2, i ≠ .env b p1 p2 := by rintro b p1 p2 rfl; cases hi
  rcases State.cmdTurn_cases h with ⟨hc, rfl⟩ | ⟨ha, rfl⟩ | ⟨-, ha, hp, ht, hk⟩ | ⟨hc, hg, rfl⟩
  · exact .corrupt hc h1 h2
  · exact .inHandler word ha hi
  · exact taken ⟨ha, hp, ht⟩ hk
  · exact .waits (by rw [hen, hc, hg]; rfl)

/-- A scan step's effect. -/
theorem scan_effect {s t : State} {k : Bank → Result} (h : s.inBank k = .next t) (hp : s.phase.bank.isSome = true) :
    ∃ b, s.phase.bank = some b ∧ k b = .next t := by
  obtain ⟨b, hb⟩ := Option.isSome_iff_exists.1 hp
  exact ⟨b, hb, by rwa [State.inBank_of_bank k hb] at h⟩

/-- The inversion of exec: a next state is one of the effects of its operation. -/
theorem exec_effect {i : Instr} {s t : State} (h : exec i s = .next t) : Effect s i t := by
  cases i with
  | csrrIrqbasic => exact read_effect .irqBasic (fun _ => rfl) rfl h
  | csrrPending1 => exact read_effect .pending1 (fun _ => rfl) rfl h
  | csrrPending2 => exact read_effect .pending2 (fun _ => rfl) rfl h
  | csrrFiqcontrol => exact read_effect .fiqControl (fun _ => rfl) rfl h
  | csrrEnable1 => exact read_effect .enable1 (fun _ => rfl) rfl h
  | csrrEnable2 => exact read_effect .enable2 (fun _ => rfl) rfl h
  | csrrEnablebasic => exact read_effect .enableBasic (fun _ => rfl) rfl h
  | csrrDisable1 => exact read_effect .disable1 (fun _ => rfl) rfl h
  | csrrDisable2 => exact read_effect .disable2 (fun _ => rfl) rfl h
  | csrrDisablebasic => exact read_effect .disableBasic (fun _ => rfl) rfl h
  | csrwIrqbasic v => exact write_effect .irqBasic v rfl h
  | csrwPending1 v => exact write_effect .pending1 v rfl h
  | csrwPending2 v => exact write_effect .pending2 v rfl h
  | csrwFiqcontrol v => exact write_effect .fiqControl v rfl h
  | csrwEnable1 v => exact write_effect .enable1 v rfl h
  | csrwEnable2 v => exact write_effect .enable2 v rfl h
  | csrwEnablebasic v => exact write_effect .enableBasic v rfl h
  | csrwDisable1 v => exact write_effect .disable1 v rfl h
  | csrwDisable2 v => exact write_effect .disable2 v rfl h
  | csrwDisablebasic v => exact write_effect .disableBasic v rfl h
  | register irq v handler context =>
    simp only [exec, execRegister] at h
    refine command_effect h rfl rfl fun ht hk => ?_
    split at hk
    · cases hk; exact .ignored ht rfl
    · rename_i hn; cases hk; exact .register irq v handler context ht (Nat.lt_of_not_le hn)
  | enable irq =>
    simp only [exec, execEnable] at h
    refine command_effect h rfl rfl fun ht hk => ?_
    split at hk
    · cases hk; exact .ignored ht rfl
    · rename_i b hb; cases hk; exact .enable irq b ht hb
  | disable irq =>
    simp only [exec, execDisable] at h
    refine command_effect h rfl rfl fun ht hk => ?_
    split at hk
    · cases hk; exact .ignored ht rfl
    · rename_i b hb; cases hk; exact .disable irq b ht hb
  | block =>
    simp only [exec, execBlock] at h
    exact command_effect h rfl rfl fun ht hk => by cases hk; exact .block ht
  | unblock =>
    simp only [exec, execUnblock] at h
    exact command_effect h rfl rfl fun ht hk => by cases hk; exact .unblock ht
  | entry =>
    simp only [exec, execEntry] at h
    refine turn_effect h (by simp) (by simp) rfl fun hg hk => ?_
    simp only [State.entryGuard, Bool.and_eq_true, decide_eq_true_eq, Bool.not_eq_true'] at hg
    cases hk; exact .entry hg.1 hg.2
  | hret =>
    simp only [exec, execHret] at h
    split at h
    · rename_i ha; cases h; exact .hret ha
    · rename_i ha; cases h; exact .waits (by simpa [enabled] using ha)
  | env basic pend1 pend2 =>
    simp only [exec, execEnv] at h
    split at h
    · rename_i hg; cases h; exact .env basic pend1 pend2 hg
    · rename_i hg; cases h; exact .waits (by simpa [enabled] using hg)
  | sBsr =>
    simp only [exec, execSBsr] at h
    refine turn_effect h (by simp) (by simp) rfl fun hg hk => ?_
    simp only [State.bsrGuard, Bool.and_eq_true, decide_eq_true_eq, Bool.not_eq_true'] at hg
    cases hk; exact .bsr hg.1 hg.2
  | sLoad =>
    simp only [exec, execSLoad] at h
    refine turn_effect h (by simp) (by simp) rfl fun hg hk => ?_
    simp only [State.loadGuard, Bool.and_eq_true, Bool.not_eq_true'] at hg
    obtain ⟨b, hb, hk⟩ := scan_effect hk hg.1.1
    rcases s.loadBank_cases b with ⟨hs, he⟩ | ⟨hs, he⟩
    · rw [he] at hk; cases hk; exact .load b hb hg.1.2 hg.2 hs
    · rw [he] at hk; cases hk; exact .skip b hb hg.1.2 hg.2 hs
  | sSelect =>
    simp only [exec, execSSelect] at h
    refine turn_effect h (by simp) (by simp) rfl fun hg hk => ?_
    simp only [State.selectGuard, Bool.and_eq_true, Bool.not_eq_true', bne_iff_ne] at hg
    obtain ⟨b, hb, hk⟩ := scan_effect hk hg.1.1.1
    rcases s.selectIn_cases b with ⟨-, hf⟩ | ⟨e, he, hv, hn⟩ | ⟨e, he, hv, hn⟩
    · rw [hf] at hk; cases hk
    · rw [hn] at hk; cases hk; exact .call b e hb hg.1.1.2 hg.1.2 hg.2 he hv
    · rw [hn] at hk; cases hk; exact .noHandler b e hb hg.1.1.2 hg.1.2 hg.2 he hv
  | sDone =>
    simp only [exec, execSDone] at h
    refine turn_effect h (by simp) (by simp) rfl fun hg hk => ?_
    simp only [State.doneGuard, Bool.and_eq_true, Bool.not_eq_true', beq_iff_eq] at hg
    obtain ⟨b, hb, hk⟩ := scan_effect hk hg.1.1.1
    cases hk; exact .done b hb hg.1.1.2 hg.1.2 hg.2
  | sCommit =>
    simp only [exec, execSCommit] at h
    refine turn_effect h (by simp) (by simp) rfl fun hg hk => ?_
    simp only [State.commitGuard, Bool.and_eq_true, decide_eq_true_eq] at hg
    cases hk; exact .commit hg.1 hg.2

end Sys2Proof.Machine
end

