-- ==== Sys2Proof/Laws/PerInstr.lean ====
section
/-! SUPPORT. One lemma per operation: its encoding is a transaction of its own format, the format of its row in
spec/opcode_table.json (R90). -/

namespace Sys2Proof.Laws

/-- The format of an operation's row of the opcode table (R92, R94, R97, R98). -/
def rowFormat : Instr → Format
  | .csrrIrqbasic => .csr
  | .csrrPending1 => .csr
  | .csrrPending2 => .csr
  | .csrrFiqcontrol => .csr
  | .csrrEnable1 => .csr
  | .csrrEnable2 => .csr
  | .csrrEnablebasic => .csr
  | .csrrDisable1 => .csr
  | .csrrDisable2 => .csr
  | .csrrDisablebasic => .csr
  | .csrwIrqbasic _ => .csr
  | .csrwPending1 _ => .csr
  | .csrwPending2 _ => .csr
  | .csrwFiqcontrol _ => .csr
  | .csrwEnable1 _ => .csr
  | .csrwEnable2 _ => .csr
  | .csrwEnablebasic _ => .csr
  | .csrwDisable1 _ => .csr
  | .csrwDisable2 _ => .csr
  | .csrwDisablebasic _ => .csr
  | .register _ _ _ _ => .cmd
  | .enable _ => .cmd
  | .disable _ => .cmd
  | .block => .cmd
  | .unblock => .cmd
  | .entry => .evt
  | .hret => .evt
  | .env _ _ _ => .evt
  | .sBsr => .step
  | .sLoad => .step
  | .sSelect => .step
  | .sDone => .step
  | .sCommit => .step

/-- The encoding of an operation is a transaction of its row's format, whoever issues it. -/
def EncodesOnItsFormat.Statement (i : Instr) : Prop := ∀ who, (encode who i).format = rowFormat i

theorem EncodesOnItsFormat.csrrIrqbasic : Statement .csrrIrqbasic := fun _ => rfl
theorem EncodesOnItsFormat.csrrPending1 : Statement .csrrPending1 := fun _ => rfl
theorem EncodesOnItsFormat.csrrPending2 : Statement .csrrPending2 := fun _ => rfl
theorem EncodesOnItsFormat.csrrFiqcontrol : Statement .csrrFiqcontrol := fun _ => rfl
theorem EncodesOnItsFormat.csrrEnable1 : Statement .csrrEnable1 := fun _ => rfl
theorem EncodesOnItsFormat.csrrEnable2 : Statement .csrrEnable2 := fun _ => rfl
theorem EncodesOnItsFormat.csrrEnablebasic : Statement .csrrEnablebasic := fun _ => rfl
theorem EncodesOnItsFormat.csrrDisable1 : Statement .csrrDisable1 := fun _ => rfl
theorem EncodesOnItsFormat.csrrDisable2 : Statement .csrrDisable2 := fun _ => rfl
theorem EncodesOnItsFormat.csrrDisablebasic : Statement .csrrDisablebasic := fun _ => rfl
theorem EncodesOnItsFormat.csrwIrqbasic (v : Word) : Statement (.csrwIrqbasic v) := fun _ => rfl
theorem EncodesOnItsFormat.csrwPending1 (v : Word) : Statement (.csrwPending1 v) := fun _ => rfl
theorem EncodesOnItsFormat.csrwPending2 (v : Word) : Statement (.csrwPending2 v) := fun _ => rfl
theorem EncodesOnItsFormat.csrwFiqcontrol (v : Word) : Statement (.csrwFiqcontrol v) := fun _ => rfl
theorem EncodesOnItsFormat.csrwEnable1 (v : Word) : Statement (.csrwEnable1 v) := fun _ => rfl
theorem EncodesOnItsFormat.csrwEnable2 (v : Word) : Statement (.csrwEnable2 v) := fun _ => rfl
theorem EncodesOnItsFormat.csrwEnablebasic (v : Word) : Statement (.csrwEnablebasic v) := fun _ => rfl
theorem EncodesOnItsFormat.csrwDisable1 (v : Word) : Statement (.csrwDisable1 v) := fun _ => rfl
theorem EncodesOnItsFormat.csrwDisable2 (v : Word) : Statement (.csrwDisable2 v) := fun _ => rfl
theorem EncodesOnItsFormat.csrwDisablebasic (v : Word) : Statement (.csrwDisablebasic v) := fun _ => rfl
theorem EncodesOnItsFormat.register (irq : BitVec 8) (v : Bool) (handler context : Word) : Statement (.register irq v handler context) := fun _ => rfl
theorem EncodesOnItsFormat.enable (irq : BitVec 8) : Statement (.enable irq) := fun _ => rfl
theorem EncodesOnItsFormat.disable (irq : BitVec 8) : Statement (.disable irq) := fun _ => rfl
theorem EncodesOnItsFormat.block : Statement .block := fun _ => rfl
theorem EncodesOnItsFormat.unblock : Statement .unblock := fun _ => rfl
theorem EncodesOnItsFormat.entry : Statement .entry := fun _ => rfl
theorem EncodesOnItsFormat.hret : Statement .hret := fun _ => rfl
theorem EncodesOnItsFormat.env (basic pend1 pend2 : Word) : Statement (.env basic pend1 pend2) := fun _ => rfl
theorem EncodesOnItsFormat.sBsr : Statement .sBsr := fun _ => rfl
theorem EncodesOnItsFormat.sLoad : Statement .sLoad := fun _ => rfl
theorem EncodesOnItsFormat.sSelect : Statement .sSelect := fun _ => rfl
theorem EncodesOnItsFormat.sDone : Statement .sDone := fun _ => rfl
theorem EncodesOnItsFormat.sCommit : Statement .sCommit := fun _ => rfl

end Sys2Proof.Laws
end

