-- ==== Sys2Proof/Machine/Assembly.lean ====
section
/-! DEFINITION. The assembly text of an operation (R101), numbers in decimal. The internal steps have no syntax of R101
and are written as the schedules of spec/95 write them. -/

namespace Sys2Proof.Machine

/-- An immediate operand. -/
def immediate (n : Nat) : String := "#" ++ toString n

/-- The text of an operation (R101). -/
def assembly : Instr → String
  | .csrrIrqbasic => "CSRR IRQBASIC"
  | .csrrPending1 => "CSRR PENDING1"
  | .csrrPending2 => "CSRR PENDING2"
  | .csrrFiqcontrol => "CSRR FIQCONTROL"
  | .csrrEnable1 => "CSRR ENABLE1"
  | .csrrEnable2 => "CSRR ENABLE2"
  | .csrrEnablebasic => "CSRR ENABLEBASIC"
  | .csrrDisable1 => "CSRR DISABLE1"
  | .csrrDisable2 => "CSRR DISABLE2"
  | .csrrDisablebasic => "CSRR DISABLEBASIC"
  | .csrwIrqbasic v => "CSRW IRQBASIC, " ++ immediate v.toNat
  | .csrwPending1 v => "CSRW PENDING1, " ++ immediate v.toNat
  | .csrwPending2 v => "CSRW PENDING2, " ++ immediate v.toNat
  | .csrwFiqcontrol v => "CSRW FIQCONTROL, " ++ immediate v.toNat
  | .csrwEnable1 v => "CSRW ENABLE1, " ++ immediate v.toNat
  | .csrwEnable2 v => "CSRW ENABLE2, " ++ immediate v.toNat
  | .csrwEnablebasic v => "CSRW ENABLEBASIC, " ++ immediate v.toNat
  | .csrwDisable1 v => "CSRW DISABLE1, " ++ immediate v.toNat
  | .csrwDisable2 v => "CSRW DISABLE2, " ++ immediate v.toNat
  | .csrwDisablebasic v => "CSRW DISABLEBASIC, " ++ immediate v.toNat
  | .register irq true handler context =>
    "REGISTER " ++ immediate irq.toNat ++ ", " ++ immediate handler.toNat ++ ", " ++ immediate context.toNat
  | .register irq false _ context => "REGISTER " ++ immediate irq.toNat ++ ", -, " ++ immediate context.toNat
  | .enable irq => "ENABLE " ++ immediate irq.toNat
  | .disable irq => "DISABLE " ++ immediate irq.toNat
  | .block => "BLOCK"
  | .unblock => "UNBLOCK"
  | .entry => "@ENTRY"
  | .hret => "@HRET"
  | .env basic pend1 pend2 =>
    "@ENV basic=" ++ toString basic.toNat ++ ", pend1=" ++ toString pend1.toNat ++ ", pend2=" ++ toString pend2.toNat
  | .sBsr => "(S_BSR)"
  | .sLoad => "(S_LOAD)"
  | .sSelect => "(S_SELECT)"
  | .sDone => "(S_DONE)"
  | .sCommit => "(S_COMMIT)"

end Sys2Proof.Machine
end

