-- ==== Sys2Proof/Tests/Slice0.lean ====
section
/-! SUPPORT. The model's own tests. Expected results come from the encodings of R91 to R98 and from the derived vectors of
spec/95_test_vectors.md (T2 to T15); the witnesses show states and operands that meet the hypotheses of each statement. -/

namespace Sys2Proof.Tests

open Sys2Proof Sys2Proof.Machine

/-- What a result shows of its next state. -/
def seen {α : Type} (f : State → α) : Result → Option α
  | .next s => some (f s)
  | .fault _ => none
  | .refused _ => none

/-! ### Well-formed terms -/

/-- An empty entry with a handler is no operation an encoding gives (R95). -/
theorem test_wellformed_refuses_handler_of_empty_entry :
    (Instr.register 0#8 false 1#32 0#32).emptyHandlerIsZero = false := by decide

/-- A handler of a valid entry, and an empty entry with handler 0, are well-formed. -/
theorem test_wellformed_accepts_registers :
    (Instr.register 35#8 true 0x8000#32 0xC0#32).emptyHandlerIsZero = true ∧
      (Instr.register 35#8 false 0#32 0xC0#32).emptyHandlerIsZero = true := by decide

/-! ### Decoding: the words are written out from R91 to R98 -/

/-- R92, the ten read descriptors: desc[6] = 0, desc[5:0] = the offset. -/
theorem test_decode_csr_reads :
    decodeTableWord 8 0b0000000 = some .csrrIrqbasic ∧ decodeTableWord 8 0b0000100 = some .csrrPending1 ∧
      decodeTableWord 8 0b0001000 = some .csrrPending2 ∧ decodeTableWord 8 0b0001100 = some .csrrFiqcontrol ∧
      decodeTableWord 8 0b0010000 = some .csrrEnable1 ∧ decodeTableWord 8 0b0010100 = some .csrrEnable2 ∧
      decodeTableWord 8 0b0011000 = some .csrrEnablebasic ∧ decodeTableWord 8 0b0011100 = some .csrrDisable1 ∧
      decodeTableWord 8 0b0100000 = some .csrrDisable2 ∧ decodeTableWord 8 0b0100100 = some .csrrDisablebasic := by
  decide

/-- R92, the ten write descriptors: desc[6] = 1. -/
theorem test_decode_csr_writes :
    decodeTableWord 7 0b1000000 = some (.csrwIrqbasic 0#32) ∧ decodeTableWord 7 0b1000100 = some (.csrwPending1 0#32) ∧
      decodeTableWord 7 0b1001000 = some (.csrwPending2 0#32) ∧
      decodeTableWord 7 0b1001100 = some (.csrwFiqcontrol 0#32) ∧
      decodeTableWord 7 0b1010000 = some (.csrwEnable1 0#32) ∧ decodeTableWord 7 0b1010100 = some (.csrwEnable2 0#32) ∧
      decodeTableWord 7 0b1011000 = some (.csrwEnablebasic 0#32) ∧
      decodeTableWord 7 0b1011100 = some (.csrwDisable1 0#32) ∧ decodeTableWord 7 0b1100000 = some (.csrwDisable2 0#32) ∧
      decodeTableWord 7 0b1100100 = some (.csrwDisablebasic 0#32) := by decide

/-- The descriptor of R91 is the one of R92's table. -/
theorem test_descriptors :
    descriptor .read .enable1 = 0b0010000#7 ∧ descriptor .write .disableBasic = 0b1100100#7 := by decide

/-- A write's datum reaches the operation whole (R91). -/
theorem test_decode_csr_datum :
    decode (.csr .thread .write (.window 0x1C#32) 4 0xDEADBEEF#32) = .instr (.csrwDisable1 0xDEADBEEF#32) ∧
      decode (.csr .handler .write (.window 0x08#32) 4 8#32) = .instr (.csrwPending2 8#32) := by decide

/-- V-CSR17 to V-CSR22 (T6): the order of the checks of R70. -/
theorem test_decode_csr_refusals :
    decode (.csr .thread .read (.window 0x00#32) 2 0#32) = .refuse (.subWord (Config.intcBase + 0x00#32) 2) ∧
      decode (.csr .thread .write (.window 0x10#32) 1 0#32) = .refuse (.subWord (Config.intcBase + 0x10#32) 1) ∧
      decode (.csr .thread .read (.window 0x28#32) 4 0#32) = .refuse (.unmapped (Config.intcBase + 0x28#32)) ∧
      decode (.csr .thread .read (.window 0x02#32) 4 0#32) = .refuse (.misaligned (Config.intcBase + 0x02#32)) ∧
      decode (.csr .thread .read (.window 0x2A#32) 4 0#32) = .refuse (.unmapped (Config.intcBase + 0x2A#32)) ∧
      decode (.csr .thread .read (.window 0x2A#32) 2 0#32) = .refuse (.subWord (Config.intcBase + 0x2A#32) 2) :=
  ⟨rfl, rfl, rfl, rfl, rfl, rfl⟩

/-- T2, the command words. -/
theorem test_decode_commands :
    decode (.cmd .thread 0x10000123#32 0x8000#32 0xC0#32) = .instr (.register 35#8 true 0x8000#32 0xC0#32) ∧
      decode (.cmd .thread 0x10000023#32 0x8000#32 0xC0#32) = .instr (.register 35#8 false 0#32 0xC0#32) ∧
      decode (.cmd .thread 0x10000147#32 0xFFFFFFFF#32 0xFFFFFFFF#32) =
        .instr (.register 71#8 true 0xFFFFFFFF#32 0xFFFFFFFF#32) ∧
      decode (.cmd .thread 0x20000023#32 0#32 0#32) = .instr (.enable 35#8) ∧
      decode (.cmd .thread 0x200000FF#32 0#32 0#32) = .instr (.enable 255#8) ∧
      decode (.cmd .thread 0x30000000#32 0#32 0#32) = .instr (.disable 0#8) ∧
      decode (.cmd .thread 0x40000000#32 0#32 0#32) = .instr .block ∧
      decode (.cmd .thread 0x50000000#32 0#32 0#32) = .instr .unblock := by decide

/-- T2 read the other way: the encoder's words. -/
theorem test_encode_commands :
    registerWord true 35#8 = 0x10000123#32 ∧ registerWord false 35#8 = 0x10000023#32 ∧ enableWord 255#8 = 0x200000FF#32 ∧
      disableWord 35#8 = 0x30000023#32 ∧ blockWord = 0x40000000#32 ∧ unblockWord = 0x50000000#32 := by decide

/-- T3, the reserved command words. -/
theorem test_decode_reserved_commands :
    ([0x00000000#32, 0x60000000#32, 0xF0000000#32, 0x10000200#32, 0x18000023#32, 0x20000123#32, 0x30000100#32,
        0x40000001#32, 0x50000100#32].all fun c =>
      decide (decode (.cmd .thread c 0#32 0#32) = .refuse (.reservedCommand c))) = true := rfl

/-- R97: the event codes; no other code names an event. -/
theorem test_decode_events :
    decode (.evt 0x01#8 0#32 0#32 0#32) = .instr .entry ∧ decode (.evt 0x02#8 0#32 0#32 0#32) = .instr .hret ∧
      decode (.evt 0x03#8 0x200#32 0#32 8#32) = .instr (.env 0x200#32 0#32 8#32) ∧
      decode (.evt 0x04#8 0#32 0#32 0#32) = .noStep := ⟨rfl, rfl, rfl, rfl⟩

/-- R98: the step labels; no other label names a step. -/
theorem test_decode_steps :
    decode (.step 0x10#8) = .instr .sBsr ∧ decode (.step 0x11#8) = .instr .sLoad ∧ decode (.step 0x12#8) = .instr .sSelect ∧
      decode (.step 0x13#8) = .instr .sDone ∧ decode (.step 0x14#8) = .instr .sCommit ∧
      decode (.step 0x15#8) = .noStep := ⟨rfl, rfl, rfl, rfl, rfl, rfl⟩

/-! ### The states the tests use -/

/-- An entry with a handler (T8: VT[63]). -/
def entry63 : VtEntry := { hvalid := true, handler := 0xA000#32, context := 0x3F#32 }

/-- After reset, UNBLOCK and the registration of line 63, with no line enabled in hardware. -/
def base : State := { State.reset.setVt 63 entry63 with gmask := false, hwen0 := 0#32, hwen1 := 0#32, hwenb := 0#32 }

/-- T8, before the first S_SELECT. -/
def scan : State :=
  { base with phase := .bank1Scan, loaded := true, w := 0x80000008#32, shadow1 := 0x80000008#32, bsnap := 0x200#32 }

/-- T8, while the handler of line 63 runs. -/
def served : State :=
  { scan with
    trace := [{ handler := 0xA000#32, irq := 63#8, context := 0x3F#32 }], curBit := 31#5, awaiting := true }

/-- Line 35 pending and enabled, no entry in progress. -/
def pending35 : State :=
  { base with inBasic := 0x200#32, inPend2 := 8#32, hwen1 := 8#32, shadow1 := 0x80000008#32 }

/-- An entry just taken. -/
def taken : State := { pending35 with phase := .basicStatusRead }

/-- A commit of ENABLE 35 left pending. -/
def committing : State := { base with hwen1 := 8#32, tpend := .set .b1 8#32 }

/-- A scan phase not yet loaded, with the summaries of a snapshot. -/
def unloaded (p : Phase) (bsnap : Word) : State :=
  { base with phase := p, bsnap := bsnap, inPend1 := 0x80000001#32, inPend2 := 0x80000000#32, inBasic := 0x300#32,
              shadow0 := 0xFFFFFFFF#32, shadow1 := 0xFFFFFFFF#32, shadow2 := 0x0F#32 }

/-- The invariant, for states whose vector table holds line 63 alone and whose commit is not pending. -/
abbrev Plain (s : State) : Prop :=
  s.phase.isCorrupt = false ∧ (s.loaded = true → s.phase.bank.isSome = true) ∧ (s.awaiting = true → s.loaded = true) ∧
    (s.awaiting = true → s.w.getLsbD s.curBit.toNat = true) ∧
    (s.phase = .bank2Scan → s.loaded = true → s.w &&& ~~~0xFF#32 = 0#32) ∧
    (∀ b ∈ [Bank.b0, .b1, .b2], s.phase.bank = some b → s.loaded = true → s.w &&& ~~~(s.shadow b) = 0#32) ∧
    s.shadow2 &&& ~~~0xFF#32 = 0#32 ∧
    coherentInputs s.inBasic s.inPend1 s.inPend2 = true

/-- A plain state meets the invariant. -/
theorem plain_inv {s : State} (h : Plain s) (hv : s.vt = base.vt) (ht : s.tpend.oneLine) : EngineInv s where
  phaseLegal := h.1
  loadedInScan := h.2.1
  awaitLoaded := h.2.2.1
  awaitBit := h.2.2.2.1
  bank2Narrow := h.2.2.2.2.1
  filtered := fun b => h.2.2.2.2.2.1 b (by cases b <;> decide)
  shadow2Narrow := h.2.2.2.2.2.2.1
  pendOneLine := ht
  emptyHandlers := by
    intro irq e he hn
    have hx : s.vtEntry irq = (State.reset.setVt 63 entry63).vtEntry irq := by unfold State.vtEntry; rw [hv]; rfl
    rw [hx, State.vtEntry_setVt] at he
    split at he
    · simp only [entry63, Nat.reduceLT, if_true, Option.some.injEq] at he
      subst he; cases hn
    · simp only [State.vtEntry, State.reset, Vector.getElem?_replicate] at he
      split at he <;> cases he
      rfl
  inputsCoherent := by simp [payloadOffered, h.2.2.2.2.2.2.2]

theorem base_inv : EngineInv base := plain_inv (by decide) rfl trivial
theorem scan_inv : EngineInv scan := plain_inv (by decide) rfl trivial
theorem served_inv : EngineInv served := plain_inv (by decide) rfl trivial
theorem pending35_inv : EngineInv pending35 := plain_inv (by decide) rfl trivial
theorem taken_inv : EngineInv taken := plain_inv (by decide) rfl trivial
theorem committing_inv : EngineInv committing := plain_inv (by decide) rfl ⟨3, by decide, by decide⟩
theorem unloaded_inv : EngineInv (unloaded .bank0Scan 0x100#32) := plain_inv (by decide) rfl trivial

/-! ### One step of each operation: T4 to T9 -/

/-- V-CSR1 to V-CSR3: the inputs are returned, nothing changes. -/
theorem test_csrr_inputs :
    exec .csrrIrqbasic { base with inBasic := 0x301#32 } =
        .next { base with inBasic := 0x301#32, readLog := [⟨.thread, .irqBasic, 0x301#32⟩] } ∧
      exec .csrrPending1 { base with inPend1 := 0x1234#32 } =
        .next { base with inPend1 := 0x1234#32, readLog := [⟨.thread, .pending1, 0x1234#32⟩] } ∧
      exec .csrrPending2 { base with inPend2 := 0x80000000#32 } =
        .next { base with inPend2 := 0x80000000#32, readLog := [⟨.thread, .pending2, 0x80000000#32⟩] } :=
  ⟨rfl, rfl, rfl⟩

/-- V-CSR4: the seven ports log one result each, for their own register, and take one draw. -/
theorem test_csrr_ports :
    ∀ p ∈ [(Instr.csrrFiqcontrol, CsrReg.fiqControl), (.csrrEnable1, .enable1), (.csrrEnable2, .enable2),
        (.csrrEnablebasic, .enableBasic), (.csrrDisable1, .disable1), (.csrrDisable2, .disable2),
        (.csrrDisablebasic, .disableBasic)],
      seen (fun t => (t.readLog.map (·.reg), t.draws)) (exec p.1 base) = some ([p.2], 1) := by decide

/-- V-CSR13 to V-CSR16, V-CSR23: refused writes; the first refusal is kept. -/
theorem test_csrw_refused :
    (∀ p ∈ [(Instr.csrwIrqbasic 0#32, RefuseReason.readOnlyWrite 0#32 0#32),
        (.csrwPending1 0xFFFFFFFF#32, .readOnlyWrite 4#32 0xFFFFFFFF#32),
        (.csrwPending2 8#32, .readOnlyWrite 8#32 8#32),
        (.csrwFiqcontrol 0x80#32, .fiqControlWrite 0x80#32)],
      seen (·.refused) (exec p.1 base) = some (some ⟨p.2, .instr p.1⟩)) ∧
      ∀ first ∈ [RefusedMark.mk (.readOnlyWrite 0#32 0#32) (.instr (.csrwIrqbasic 0#32))],
        seen (·.refused) (exec (.csrwFiqcontrol 1#32) { base with refused := some first }) = some (some first) := by
  decide

/-- R211, the table of codes. -/
theorem test_refusal_codes :
    [RefuseReason.unmapped 0#32, .misaligned 0#32, .subWord 0#32 2, .readOnlyWrite 0#32 0#32, .fiqControlWrite 0#32,
        .reservedCommand 0#32, .commandInHandler 0#32, .phaseCorrupt 5#3].map RefuseReason.code =
      [1, 2, 3, 4, 5, 6, 7, 8] := by decide

/-- V-CSR18, V-CSR19 (T6): a refused access keeps its direction and its datum in REFUSED. -/
theorem test_refused_access :
    step { base with offers := [.csr .thread .write (.window 0x10#32) 1 0xFF#32] } =
        .next { base with
          refused := some ⟨.subWord (Config.intcBase + 0x10#32) 1,
            .transaction (.csr .thread .write (.window 0x10#32) 1 0xFF#32)⟩ } ∧
      step { base with offers := [.csr .thread .read (.window 0x28#32) 4 0#32] } =
        .next { base with
          refused := some ⟨.unmapped (Config.intcBase + 0x28#32),
            .transaction (.csr .thread .read (.window 0x28#32) 4 0#32)⟩ } := ⟨rfl, rfl⟩

/-- V-CSR5, V-CSR7, V-CSR9 to V-CSR11: the enable ports. -/
theorem test_csrw_enable :
    seen (·.hwen0) (exec (.csrwEnable1 0xF0#32) { base with hwen0 := 0xF00#32 }) = some 0xFF0#32 ∧
      seen (·.shadow0) (exec (.csrwEnable1 1#32) base) = some 0#32 ∧
      seen (·.hwen1) (exec (.csrwEnable2 8#32) { base with hwen1 := 8#32 }) = some 8#32 ∧
      seen (fun t => (t.hwenb, t.irqLine)) (exec (.csrwEnablebasic 0xFFFFFF00#32) base) =
        some (0xFFFFFF00#32, false) := by decide

/-- V-CSR6, V-CSR8, V-CSR12: the disable ports. -/
theorem test_csrw_disable :
    seen (·.hwen0) (exec (.csrwDisable1 0x300#32) { base with hwen0 := 0xFF0#32 }) = some 0xCF0#32 ∧
      seen (·.hwen1) (exec (.csrwDisable2 0xFFFFFFFF#32) { base with hwen1 := 0xCF0#32 }) = some 0#32 ∧
      seen (·.hwenb) (exec (.csrwDisablebasic 0x81#32) { base with hwenb := 0xFF#32 }) = some 0x7E#32 := by decide

/-- V-CMD13, V-CMD9: an in-range and an out-of-range REGISTER. -/
theorem test_register :
    seen (fun t => (t.vtEntry 71, t.gmask)) (exec (.register 71#8 true 0x9000#32 0x47#32) State.reset) =
        some (some ⟨true, 0x9000#32, 0x47#32⟩, false) ∧
      seen (fun t => (t.gmask, t.refused)) (exec (.register 72#8 true 0x8000#32 0#32) State.reset) =
        some (true, none) := by decide

/-- V-CMD14, V-CMD15: an entry is replaced whole. -/
theorem test_register_replaces :
    seen (·.vtEntry 63) (exec (.register 63#8 false 0x1#32 0x77#32) base) = some (some ⟨false, 0#32, 0x77#32⟩) ∧
      seen (·.vtEntry 63) (exec (.register 63#8 true 0x8800#32 0xC1#32) base) = some (some ⟨true, 0x8800#32, 0xC1#32⟩) := by
  decide

/-- V-CMD1, V-CMD4, V-CMD6, V-CMD19: the hardware half of ENABLE. -/
theorem test_enable :
    seen (fun t => (t.hwen0, t.tpend, t.shadow0)) (exec (.enable 0#8) base) =
        some (1#32, .set .b0 1#32, 0#32) ∧
      seen (fun t => (t.hwen1, t.tpend)) (exec (.enable 63#8) base) =
        some (0x80000000#32, .set .b1 0x80000000#32) ∧
      seen (fun t => (t.hwenb, t.tpend)) (exec (.enable 71#8) base) =
        some (0x80#32, .set .b2 0x80#32) ∧
      seen (·.hwen0) (exec (.enable 16#8) { base with hwen0 := 0xFFFF#32 }) = some 0x1FFFF#32 := by decide

/-- V-CMD17, V-CMD11: the hardware half of DISABLE. -/
theorem test_disable :
    seen (fun t => (t.hwen1, t.tpend)) (exec (.disable 40#8) base) =
        some (0#32, .clr .b1 0x100#32) ∧
      exec (.disable 255#8) base = .next base := ⟨rfl, rfl⟩

/-- V-CMD3, V-CMD8: the shadow half. -/
theorem test_s_commit :
    seen (fun t => (t.shadow1, t.tpend)) (exec .sCommit { base with tpend := .set .b1 1#32 }) = some (1#32, .none) ∧
      seen (fun t => (t.shadow1, t.tpend)) (exec .sCommit { base with shadow1 := 8#32, tpend := .clr .b1 8#32 }) =
        some (0#32, .none) := by decide

/-- V-CMD18: a command of a handler. -/
theorem test_command_in_handler :
    exec (.enable 3#8) served =
      .next { served with refused := some ⟨.commandInHandler 0x20000003#32, .instr (.enable 3#8)⟩ } := rfl

/-- V-G1: no count. -/
theorem test_block_unblock :
    seen (·.gmask) (execAll [.block, .block, .unblock] base) = some false ∧
      seen (·.gmask) (execAll [.block, .unblock, .block] base) = some true := by decide

/-- V-G4, T9: ENTRY with the gate open, and with it closed. -/
theorem test_entry :
    exec .entry base = .next { base with phase := .basicStatusRead } ∧ exec .entry State.reset = .next State.reset :=
  ⟨rfl, rfl⟩

/-- T10 step 8. -/
theorem test_s_bsr :
    seen (fun t => (t.bsnap, t.phase)) (exec .sBsr taken) = some (0x200#32, .bank0Scan) := by decide

/-- T10 steps 9 and 10, V-D8: a skipped bank, a filtered bank, bank 2 from the snapshot. -/
theorem test_s_load :
    seen (fun t => (t.phase, t.loaded)) (exec .sLoad (unloaded .bank0Scan 0x200#32)) = some (.bank1Scan, false) ∧
      seen (fun t => (t.w, t.loaded)) (exec .sLoad (unloaded .bank1Scan 0x200#32)) = some (0x80000000#32, true) ∧
      seen (fun t => (t.w, t.phase)) (exec .sLoad (unloaded .bank2Scan 0xFF#32)) = some (0x0F#32, .bank2Scan) := by decide

/-- T8, the first and the third row. -/
theorem test_s_select :
    exec .sSelect scan = .next served ∧
      seen (fun t => (t.w, t.trace, t.awaiting)) (exec .sSelect { scan with w := 8#32 }) = some (0#32, [], false) :=
  ⟨rfl, rfl⟩

/-- T8, the second row. -/
theorem test_hret : seen (fun t => (t.w, t.awaiting)) (exec .hret served) = some (8#32, false) := by decide

/-- T8, the last row. -/
theorem test_s_done :
    seen (fun t => (t.phase, t.loaded)) (exec .sDone { scan with w := 0#32 }) = some (.bank2Scan, false) := by decide

/-- T10 steps 6 and 12. -/
theorem test_env :
    seen (fun t => (t.inBasic, t.inPend2)) (exec (.env 0x200#32 0#32 8#32) base) = some (0x200#32, 8#32) ∧
      seen (·.inPend2) (exec (.env 0#32 0#32 0#32) served) = some 0#32 := by decide

/-- R33: S_LOAD finds a PHASE of 6; with nothing offered the ENGINE's step finds one of 7; while a handler runs nothing
does (log 13). -/
theorem test_corrupt_phase :
    seen (·.refused) (exec .sLoad { base with phase := .corrupt6 }) = some (some ⟨.phaseCorrupt 6#3, .instr .sLoad⟩) ∧
      seen (·.refused) (step { base with phase := .corrupt7 }) = some (some ⟨.phaseCorrupt 7#3, .engineStep⟩) ∧
      seen (·.refused) (step { served with phase := .corrupt5 }) = some none := by decide

/-- A placed operation runs in the next step: a read, a command, an event, an internal step. -/
theorem test_placed_operations_run :
    step (State.reset.withFetchWord 8 0x04) = exec .csrrPending1 State.reset ∧
      step (State.reset.withFetchWord 32 0x40000000) = exec .block State.reset ∧
      step (State.reset.withFetchWord 8 0x01) = exec .entry { State.reset with gmask := false } ∧
      step (State.reset.withFetchWord 8 0x12) =
        exec .sSelect { State.reset with phase := .bank0Scan, loaded := true, w := 1#32 } := ⟨rfl, rfl, rfl, rfl⟩

/-! ### Witnesses: states and operands that meet the hypotheses of the statements together -/

/-- EveryStepKeepsTheInvariant, NoStepStopsUnderTheInvariant: a state of the invariant whose step calls a handler. -/
theorem witness_step_under_the_invariant : ∃ s s', EngineInv s ∧ step s = .next s' ∧ s' ≠ s :=
  ⟨scan, served, scan_inv, rfl, by decide⟩

/-- DecodingAnEncodedOperationGivesItBack: well-formed operations, a REGISTER with v = 0 among them. -/
theorem witness_well_formed :
    (Instr.register 71#8 false 0#32 0xFFFFFFFF#32).WellFormed ∧ (Instr.register 255#8 true 1#32 0#32).WellFormed ∧
      (Instr.csrwDisablebasic 0xFFFFFFFF#32).WellFormed := ⟨rfl, rfl, rfl⟩

/-- CommandWordsDecodeWithoutLoss, CommandsOfAHandlerAreRefused: command words that decode, and a running handler. -/
theorem witness_handler_command :
    served.awaiting = true ∧ decode (.cmd .handler 0x20000003#32 0#32 0#32) = .instr (.enable 3#8) ∧
      decode (.cmd .handler 0x100001FF#32 1#32 2#32) = .instr (.register 255#8 true 1#32 2#32) := ⟨rfl, rfl, rfl⟩

/-- ReservedCommandWordsAreRefused: each reason at a boundary, the words next to it that are not reserved, and a state
whose THREAD may issue. -/
theorem witness_reserved_words :
    (0x0FFFFFFF#32).extractLsb' 28 4 = 0#4 ∧ (0x60000000#32).extractLsb' 28 4 = 6#4 ∧
      (0x10000200#32).extractLsb' 9 19 = 1#19 ∧ (0x18000000#32).extractLsb' 9 19 ≠ 0#19 ∧
      ((0x20000100#32).getLsbD 8 = true ∧ (0x20000100#32).extractLsb' 28 4 = 2#4) ∧
      ((0x50000001#32).extractLsb' 0 8 ≠ 0#8 ∧ (0x50000001#32).extractLsb' 28 4 = 5#4) ∧
      decode (.cmd .thread 0x100001FF#32 0#32 0#32) = .instr (.register 255#8 true 0#32 0#32) ∧
      base.mayIssue ∧ served.mayIssue := by
  refine ⟨by decide, by decide, by decide, by decide, by decide, by decide, rfl, .inr ⟨rfl, rfl⟩, .inl rfl⟩

/-- CsrAddressesDecodeInTheStatedOrder: addresses at the ends of each clause's range, in the window of any INTC_BASE. -/
theorem witness_csr_addresses :
    (Config.intcBase + 0x00#32 - Config.intcBase).toNat = 0 ∧ (Config.intcBase + 0x24#32 - Config.intcBase).toNat = 0x24 ∧
      (Config.intcBase + 0x27#32 - Config.intcBase).toNat = 0x27 ∧
      (Config.intcBase + 0x28#32 - Config.intcBase).toNat = 0x28 ∧
      (Config.intcBase - 1#32 - Config.intcBase).toNat = 0xFFFFFFFF := by
  have h : ∀ a b : Word, a + b - a = b := fun a b => by simp
  have h' : ∀ a b : Word, a - b - a = -b := fun a b => by rw [BitVec.sub_sub, BitVec.add_comm, ← BitVec.sub_sub]; simp
  refine ⟨?_, ?_, ?_, ?_, ?_⟩
  · rw [h]; rfl
  · rw [h]; rfl
  · rw [h]; rfl
  · rw [h]; rfl
  · rw [h']; rfl

/-- StepRunsTheDecodedOperation: a ready offer at the head of the list, of THREAD and of a HANDLER; offers that wait, of one
agent, before a ready one of another; and a ready offer that waits behind one of its agent, so that none is taken. -/
theorem witness_ready_offer :
    (decode (encode .thread (.enable 35#8)) = .instr (.enable 35#8) ∧ ready (encode .thread (.enable 35#8)) base = true) ∧
      (decode (encode .handler .csrrPending1) = .instr .csrrPending1 ∧
        ready (encode .handler .csrrPending1) served = true) ∧
      (ready (encode .thread .block) taken = false ∧ ready (encode .thread .sBsr) taken = true ∧
        offerAgent (encode .thread .block) ≠ offerAgent (encode .thread .sBsr) ∧
        nextOffer { taken with offers := [encode .thread .block, encode .thread .sBsr, encode .thread .sLoad] } =
          some (encode .thread .sBsr, [encode .thread .block, encode .thread .sLoad])) ∧
      nextOffer { taken with offers := [encode .thread .sLoad, encode .thread .sBsr] } = none :=
  ⟨⟨rfl, rfl⟩, ⟨rfl, rfl⟩, ⟨rfl, rfl, by decide, rfl⟩, rfl⟩

/-- EveryScheduleCanBeOffered: the start of program P3 (T12), an ENTRY before the S_COMMIT. -/
theorem witness_schedule : base.offers = [] ∧ isSchedule [.enable 35#8, .entry, .sBsr] base :=
  ⟨rfl, rfl, rfl, _, rfl, rfl, rfl, _, rfl, rfl, rfl, _, rfl, trivial⟩

/-- StepMarksARefusedTransaction: a reserved word of THREAD (T15, step 5). -/
theorem witness_refused_offer :
    decode (.cmd .thread 0x60000000#32 0#32 0#32) = .refuse (.reservedCommand 0x60000000#32) ∧
      issuerFits (.cmd .thread 0x60000000#32 0#32 0#32) base = true ∧ base.mayIssue := ⟨rfl, rfl, .inr ⟨rfl, rfl⟩⟩

/-- AnUnattendedMachineTakesItsInternalStep: a state of the invariant for each clause, with nothing offered; and one where
the only offer cannot be taken. -/
theorem witness_unattended :
    (EngineInv served ∧ nextOffer served = none ∧ served.awaiting = true) ∧
      (EngineInv taken ∧ nextOffer taken = none ∧ taken.awaiting = false ∧ taken.phase = .basicStatusRead) ∧
      (EngineInv { taken with offers := [encode .thread .block] } ∧
        nextOffer { taken with offers := [encode .thread .block] } = none) ∧
      (EngineInv (unloaded .bank0Scan 0x100#32) ∧ (unloaded .bank0Scan 0x100#32).phase.bank.isSome = true ∧
        (unloaded .bank0Scan 0x100#32).loaded = false) ∧
      (EngineInv scan ∧ scan.awaiting = false ∧ scan.loaded = true ∧ scan.w ≠ 0#32) ∧
      (EngineInv { scan with w := 0#32 } ∧ ({ scan with w := 0#32 } : State).loaded = true) ∧
      (EngineInv committing ∧ committing.phase = .idle ∧ committing.tpend ≠ .none) ∧
      (EngineInv pending35 ∧ pending35.phase = .idle ∧ pending35.gmask = false ∧ pending35.irqLine = true) ∧
      (EngineInv base ∧ base.phase = .idle ∧ base.tpend = .none ∧ base.irqLine = false) :=
  ⟨⟨served_inv, rfl, rfl⟩, ⟨taken_inv, rfl, rfl, rfl⟩, ⟨plain_inv (by decide) rfl trivial, rfl⟩,
    ⟨unloaded_inv, rfl, rfl⟩, ⟨scan_inv, rfl, rfl, by decide⟩,
    ⟨plain_inv (by decide) rfl trivial, rfl⟩, ⟨committing_inv, rfl, by decide⟩, ⟨pending35_inv, rfl, rfl, by decide⟩,
    base_inv, rfl, rfl, by decide⟩

/-- AnOperationThatIsNotEnabledWaits. -/
theorem witness_not_enabled :
    enabled .sBsr State.reset = false ∧ enabled .block committing = false ∧ enabled .hret scan = false := ⟨rfl, rfl, rfl⟩

/-- TheGuardsOfTheOperations: a legal phase, operations of both ports, a coherent payload. -/
theorem witness_guards :
    scan.phase.isCorrupt = false ∧ isCsrOperation .csrrIrqbasic ∧ isCommand .unblock ∧
      coherentInputs 0x200#32 0#32 8#32 = true := ⟨rfl, rfl, rfl, by decide⟩

/-- AtMostOneAgentIsEnabled: two operations of the dispatcher's own that are enabled (one and the same). -/
theorem witness_enabled : EngineInv scan ∧ Instr.sSelect ∈ dispatcherSteps ∧ enabled .sSelect scan = true :=
  ⟨scan_inv, by decide, rfl⟩

/-- The statements of CSR operations: THREAD may issue after reset, a HANDLER while it runs. -/
theorem witness_may_issue : State.reset.mayIssue ∧ served.mayIssue := ⟨.inr ⟨rfl, rfl⟩, .inl rfl⟩

/-- DisjointSetAndClearCommute: masks with no common bit. -/
theorem witness_disjoint : base.mayIssue ∧ 0xFF00FF00#32 &&& 0x00FF00FF#32 = 0#32 := ⟨.inr ⟨rfl, rfl⟩, by decide⟩

/-- CsrOperationsWriteOnlyHwenAndRefused: a CSR operation that changes HWEN. -/
theorem witness_csr_operation :
    isCsrOperation (.csrwEnable1 8#32) ∧ exec (.csrwEnable1 8#32) base = .next { base with hwen0 := 8#32 } := ⟨rfl, rfl⟩

/-- The statements of commands: THREAD may command, with the identifiers at the ends of each bank and past them. -/
theorem witness_commands :
    State.reset.threadMayCommand ∧ (0#8).toNat ≤ 31 ∧ (31#8).toNat ≤ 31 ∧ (32 ≤ (32#8).toNat ∧ (63#8).toNat ≤ 63) ∧
      (64 ≤ (64#8).toNat ∧ (71#8).toNat < 72) ∧ 72 ≤ (72#8).toNat ∧ 72 ≤ (255#8).toNat := by
  refine ⟨⟨rfl, rfl, rfl⟩, by decide, by decide, by decide, by decide, by decide, by decide⟩

/-- CommitWritesTheShadowMask: a pending commit of either kind. -/
theorem witness_commit :
    committing.phase = .idle ∧ committing.tpend = .set .b1 8#32 ∧
      ({ committing with tpend := .clr .b2 0x80#32 } : State).tpend = .clr .b2 0x80#32 := ⟨rfl, rfl, rfl⟩

/-- EnableThenDisableOnTheShadow: the banks' first and last lines. -/
theorem witness_enable_then_disable :
    base.threadMayCommand ∧ (31#8).toNat ≤ 31 ∧ (32 ≤ (32#8).toNat ∧ (32#8).toNat ≤ 63) ∧
      (64 ≤ (71#8).toNat ∧ (71#8).toNat < 72) := ⟨⟨rfl, rfl, rfl⟩, by decide, by decide, by decide⟩

/-- TheLastGateCommandDecides: V-G8. -/
theorem witness_gate_commands :
    base.threadMayCommand ∧ ∀ i ∈ [Instr.block, .register 71#8 true 1#32 0#32, .unblock, .block],
      i = .block ∨ i = .unblock ∨ ∃ irq v d0 ctx, i = .register irq v d0 ctx ∧ irq.toNat < 72 := by
  refine ⟨⟨rfl, rfl, rfl⟩, ?_⟩
  simp

/-- AnEntryFallsInTheEnableWindow: program P3 (T12), and the first and last line of each bank. -/
theorem witness_enable_window :
    base.threadMayCommand ∧ base.gmask = false ∧ (35#8).toNat < 72 ∧ (0#8).toNat ≤ 31 ∧ (31#8).toNat ≤ 31 ∧
      (32 ≤ (32#8).toNat ∧ (63#8).toNat ≤ 63) ∧ (64 ≤ (64#8).toNat ∧ (71#8).toNat < 72) :=
  ⟨⟨rfl, rfl, rfl⟩, rfl, by decide, by decide, by decide, by decide, by decide⟩

/-- SafeEnableCompletesInFourSteps: the three commands offered, for the ends of bank 1. -/
theorem witness_safe_enable :
    ({ base with offers := (Pseudo.safeEnable 63#8).expand.map (encode .thread) } : State).threadMayCommand ∧
      32 ≤ (32#8).toNat ∧ (63#8).toNat ≤ 63 := ⟨⟨rfl, rfl, rfl⟩, by decide, by decide⟩

/-- EntryIsTakenInIdleWithTheGateOpen: each clause. -/
theorem witness_entry :
    (base.phase = .idle ∧ base.gmask = false) ∧ (scan.phase.isCorrupt = false ∧ scan.phase ≠ .idle) ∧
      (State.reset.phase.isCorrupt = false ∧ State.reset.gmask = true) := ⟨⟨rfl, rfl⟩, ⟨rfl, by decide⟩, rfl, rfl⟩

/-- BasicStatusReadTakesTheSnapshot. -/
theorem witness_basic_status_read : taken.phase = .basicStatusRead ∧ taken.awaiting = false := ⟨rfl, rfl⟩

/-- LoadFiltersThePendingWord: each clause, with one summary bit set and no other, or none. -/
theorem witness_load :
    (∀ p ∈ [Phase.bank0Scan, .bank1Scan, .bank2Scan], ∀ v ∈ [0x100#32, 0x200#32, 0x80#32, 0#32],
        (unloaded p v).loaded = false ∧ (unloaded p v).awaiting = false ∧ (unloaded p v).phase = p ∧
          (unloaded p v).bsnap = v) ∧
      (0x100#32).getLsbD 8 = true ∧ (0#32).getLsbD 8 = false ∧ (0x200#32).getLsbD 9 = true ∧ (0x100#32).getLsbD 9 = false ∧
      (0x80#32).extractLsb' 0 8 ≠ 0#8 ∧ (0x100#32).extractLsb' 0 8 = 0#8 := by
  refine ⟨fun p _ v _ => ⟨rfl, rfl, rfl, rfl⟩, by decide, by decide, by decide, by decide, by decide, by decide⟩

/-- SelectServesTheHighestPendingLine: T8, a line with a handler and a line without. -/
theorem witness_select :
    (scan.scanning .b1 ∧ scan.loaded = true ∧ scan.w.getLsbD 31 = true ∧ (∀ j, 31 < j → scan.w.getLsbD j = false) ∧
        scan.vtEntry (bankBase .b1 + 31) = some entry63 ∧ entry63.hvalid = true) ∧
      (({ scan with w := 8#32 } : State).w.getLsbD 3 = true ∧
        (∀ j, 3 < j → ({ scan with w := 8#32 } : State).w.getLsbD j = false) ∧
        ({ scan with w := 8#32 } : State).vtEntry (bankBase .b1 + 3) = some VtEntry.empty) := by
  refine ⟨⟨⟨rfl, rfl⟩, rfl, by decide, fun j hj => BitVec.getLsbD_of_ge _ _ hj, rfl, rfl⟩, by decide, fun j hj => ?_, rfl⟩
  by_cases h : j < 32
  · have hall : ∀ j, j < 32 → 3 < j → (8#32).getLsbD j = false := by decide
    exact hall j h hj
  · exact BitVec.getLsbD_of_ge _ _ (Nat.le_of_not_lt h)

/-- HandlerReturnClearsItsBit, AHandlerThatDoesNotReturnHoldsTheEngine: a running handler that writes a port. -/
theorem witness_handler :
    EngineInv served ∧ served.awaiting = true ∧
      exec (.csrwDisable2 8#32) served = .next { served with hwen1 := served.hwen1 &&& ~~~8#32 } :=
  ⟨served_inv, rfl, rfl⟩

/-- DoneGoesToTheNextBank: an emptied bank, in each scan phase. -/
theorem witness_done :
    ∀ p ∈ [Phase.bank0Scan, .bank1Scan, .bank2Scan],
      ({ scan with phase := p, w := 0#32 } : State).loaded = true ∧ ({ scan with phase := p, w := 0#32 } : State).w = 0#32 ∧
        ({ scan with phase := p, w := 0#32 } : State).awaiting = false := fun _ _ => ⟨rfl, rfl, rfl⟩

/-- EnvReplacesTheInputs: a coherent payload, and one that is not. -/
theorem witness_env :
    (((0x300#32).getLsbD 8 = true ↔ 1#32 ≠ 0#32) ∧ ((0x300#32).getLsbD 9 = true ↔ 8#32 ≠ 0#32)) ∧
      ¬(((0x100#32).getLsbD 8 = true ↔ 0#32 ≠ 0#32) ∧ ((0x100#32).getLsbD 9 = true ↔ 0#32 ≠ 0#32)) := by decide

/-- ACorruptPhaseIsRefused: the first and the last value of PHASE that is no phase; no offer that can be taken. -/
theorem witness_corrupt_phase :
    5 ≤ (Phase.corrupt5).code.toNat ∧ 5 ≤ (Phase.corrupt7).code.toNat ∧ Instr.sLoad ≠ .hret ∧
      ({ base with phase := .corrupt5 } : State).awaiting = false ∧
      nextOffer { base with phase := .corrupt7 } = none := by
  decide

/-- AQuietEntryEmitsItsClosedForm, AnEntryGoesOnToIdleOrAHandler: an entry that can be taken, and one in progress. -/
theorem witness_entry_in_progress :
    (EngineInv pending35 ∧ pending35.phase = .idle ∧ pending35.gmask = false) ∧
      (EngineInv taken ∧ taken.offers = [] ∧ taken.awaiting = false ∧ taken.phase ≠ .idle) :=
  ⟨⟨pending35_inv, rfl, rfl⟩, taken_inv, rfl, rfl, by decide⟩

/-- DispatcherStepsKeepTheCallsOfTheEntry, EveryCallPassedTheShadowFilter: the call of T8. -/
theorem witness_call :
    EngineInv scan ∧ exec .sSelect scan = .next served ∧
      served.trace = scan.trace ++ [{ handler := 0xA000#32, irq := 63#8, context := 0x3F#32 }] := ⟨scan_inv, rfl, rfl⟩

/-- LateInputChangesLeaveLoadedBanksAlone: V-D14's late drop, at the call, at its return, and at the bank's end; and bank
2, not loaded and loaded. -/
theorem witness_late_input :
    (EngineInv scan ∧ scan.loaded = true) ∧ (EngineInv served ∧ served.loaded = true) ∧
      (EngineInv { scan with w := 0#32 } ∧ ({ scan with w := 0#32 } : State).loaded = true) ∧
      (EngineInv (unloaded .bank2Scan 0x80#32) ∧ (unloaded .bank2Scan 0x80#32).phase = .bank2Scan) ∧
      (EngineInv { unloaded .bank2Scan 0x80#32 with loaded := true, w := 0x08#32 } ∧
        (unloaded .bank2Scan 0x80#32).phase = .bank2Scan) ∧
      exec .sSelect { scan with inBasic := 0#32, inPend1 := 0#32, inPend2 := 0#32 } =
        .next { served with inBasic := 0#32, inPend1 := 0#32, inPend2 := 0#32 } :=
  ⟨⟨scan_inv, rfl⟩, ⟨served_inv, rfl⟩, ⟨plain_inv (by decide) rfl trivial, rfl⟩,
    ⟨plain_inv (by decide) rfl trivial, rfl⟩, ⟨plain_inv (by decide) rfl trivial, rfl⟩, rfl⟩

/-- EveryServedBitShrinksTheWord: a return, and a line without a handler. -/
theorem witness_served_bit :
    (EngineInv served ∧ served.awaiting = true ∧ exec .hret served = .next served.handlerReturn) ∧
      (EngineInv { scan with w := 8#32 } ∧ ({ scan with w := 8#32 } : State).w ≠ 0#32 ∧
        exec .sSelect { scan with w := 8#32 } = .next { scan with w := 0#32 }) :=
  ⟨⟨served_inv, rfl, rfl⟩, plain_inv (by decide) rfl trivial, by decide, rfl⟩

/-- TheFirstRefusalIsKept: V-CSR23 offered as a step. -/
theorem witness_first_refusal :
    ∃ t, step { base with
        refused := some ⟨.readOnlyWrite 0#32 0#32, .instr (.csrwIrqbasic 0#32)⟩
        offers := [encode .thread (.csrwFiqcontrol 1#32)] } = .next t := ⟨_, rfl⟩

/-- TableAndShadowChangeOnlyByThread, TheGateMovesByThreeCommandsOnly, OnlyEnvChangesTheInputs: operations that change the
table, a shadow mask and the gate. -/
theorem witness_changes :
    (∃ t, exec (.register 63#8 false 0#32 0#32) base = .next t ∧ t.vt ≠ base.vt) ∧
      (∃ t, exec .sCommit committing = .next t ∧ t.shadow .b1 ≠ committing.shadow .b1) ∧
      ∃ t, exec .block base = .next t ∧ t.gmask ≠ base.gmask := by
  refine ⟨⟨_, rfl, fun h => ?_⟩, ⟨_, rfl, by decide⟩, _, rfl, by decide⟩
  have h' := congrArg (fun v : Vector VtEntry 72 => v[63]?) h
  revert h'
  decide

/-- EntriesNeverNest: an entry that begins. -/
theorem witness_entry_begins :
    ∃ t, exec .entry base = .next t ∧ t.phase = .basicStatusRead ∧ base.phase ≠ .basicStatusRead :=
  ⟨_, rfl, rfl, by decide⟩

/-- TraceGrowsBySelectAlone: a step that appends a call, and an operation that is not S_SELECT. -/
theorem witness_trace :
    step scan = .next served ∧ (∃ t, exec .hret served = .next t) ∧ Instr.hret ≠ .sSelect := ⟨rfl, ⟨_, rfl⟩, by decide⟩

/-- NoCallBeforeTheFirstEnable: a quiet state in an entry, with a bank loaded with W = 0. -/
theorem witness_quiet :
    let s : State := { base with phase := .bank0Scan, loaded := true }
    ((∀ b, s.shadow b = 0#32) ∧ (∀ b m, s.tpend ≠ .set b m) ∧ (s.loaded = true → s.w = 0#32) ∧ s.awaiting = false) ∧
      (∀ irq, Instr.sDone ≠ .enable irq) ∧ ∃ t, exec .sDone s = .next t := by
  refine ⟨⟨fun b => by cases b <;> rfl, fun _ _ h => by simp [base, State.setVt, State.reset] at h, fun _ => rfl, rfl⟩,
    fun _ h => Instr.noConfusion h, _, rfl⟩

/-- AClosedGateLeavesOnlyThread: a CSR write after reset. -/
theorem witness_closed_gate :
    State.reset.gmask = true ∧ State.reset.phase = .idle ∧ State.reset.awaiting = false ∧ ¬ isCommand (.csrwEnable1 1#32) ∧
      ∃ t, exec (.csrwEnable1 1#32) State.reset = .next t :=
  ⟨rfl, rfl, rfl, by simp [isCommand, encode, writeOffer, Offer.format], _, rfl⟩

end Sys2Proof.Tests
end

section
/-! PROOFS. The scope of the machine (00_scope.md): the address forms of R13, and the operation that waits (log 10). -/

open Sys2Proof Sys2Proof.Machine

namespace Sys2Proof

/-! ### Bus addresses -/

@[simp] theorem BusAddr.address_abs (addr : Word) : (BusAddr.abs addr).address = addr := rfl
@[simp] theorem BusAddr.address_window (off : Word) : (BusAddr.window off).address = Config.intcBase + off := rfl
@[simp] theorem BusAddr.offset_abs (addr : Word) : (BusAddr.abs addr).offset = addr - Config.intcBase := rfl
@[simp] theorem BusAddr.offset_window (off : Word) : (BusAddr.window off).offset = off := rfl

/-- The decoder looks at an address through its byte address and its offset alone (R70). -/
theorem decodeCsr_congr {a b : BusAddr} (haddr : a.address = b.address) (hoff : a.offset = b.offset)
    (dir : Dir) (n : Nat) (data : Word) : decodeCsr dir a n data = decodeCsr dir b n data := by
  simp only [decodeCsr, haddr, hoff]

end Sys2Proof

/-- Settles O9: the two forms of an address have one byte address and one offset, whatever INTC_BASE is. -/
theorem windowOffsetsNameAbsoluteAddresses : Obligations.WindowOffsetsNameAbsoluteAddresses := by
  intro who dir off n v
  have haddr : (BusAddr.abs (Config.intcBase + off)).address = (BusAddr.window off).address := by simp
  have hoff : (BusAddr.abs (Config.intcBase + off)).offset = (BusAddr.window off).offset := by
    simp [BitVec.add_comm Config.intcBase off]
  exact decodeCsr_congr haddr hoff dir n v

namespace Sys2Proof.Machine

/-! ### Operations as turns -/

/-- Every operation but HRET and ENV is a turn of its agent, and is enabled where that turn does not wait (R31, R33). -/
theorem exec_eq_turn {i : Instr} (s : State) (hret : i ≠ .hret) (henv : ∀ b p1 p2, i ≠ .env b p1 p2) :
    ∃ g k, enabled i s = (s.findsCorruptPhase || g) ∧ exec i s = s.turn (.instr i) g k := by
  cases i with
  | hret => exact absurd rfl hret
  | env b p1 p2 => exact absurd rfl (henv b p1 p2)
  | _ => exact ⟨_, _, rfl, by unfold exec; rfl⟩

/-- HRET is taken where its guard holds, else it waits (R169). -/
theorem exec_hret (s : State) : exec .hret s = .next (if enabled .hret s then s.handlerReturn else s) :=
  (apply_ite Host.Outcome.next _ _ _).symm

/-- ENV is taken where its payload is offered, else it waits (R171; log 3). -/
theorem exec_env (basic pend1 pend2 : Word) (s : State) :
    exec (.env basic pend1 pend2) s =
      .next (if enabled (.env basic pend1 pend2) s then { s with inBasic := basic, inPend1 := pend1, inPend2 := pend2 }
        else s) :=
  (apply_ite Host.Outcome.next _ _ _).symm

end Sys2Proof.Machine

/-- Settles O15: HRET and ENV by their guards, every other operation as a turn that waits. -/
theorem anOperationThatIsNotEnabledWaits : Obligations.AnOperationThatIsNotEnabledWaits := by
  intro i s hdisabled
  by_cases hret : i = .hret
  · subst hret
    simp [exec_hret, hdisabled]
  by_cases henv : ∃ b p1 p2, i = .env b p1 p2
  · obtain ⟨b, p1, p2, rfl⟩ := henv
    simp [exec_env, hdisabled]
  obtain ⟨g, k, hen, hturn⟩ := exec_eq_turn s hret fun b p1 p2 h => henv ⟨b, p1, p2, h⟩
  obtain ⟨hcorrupt, hguard⟩ := Bool.or_eq_false_iff.1 (hen.symm.trans hdisabled)
  rw [hturn, State.turn_waits k hcorrupt hguard]

end

section
/-! PROOFS. The state (10_state.md): what a step leaves of each element, the invariant of the engine, which agents may
act in a state, and the runs of a schedule. -/

open Sys2Proof Sys2Proof.Machine

namespace Sys2Proof.Machine

/-! ### What a step can do -/

/-- A transaction that decodes to a refusal sets REFUSED at most (R70, R96). -/
theorem refuseOffer_cases {s t : State} {r : RefuseReason} {o : Offer} (h : refuseOffer r o s = .next t) :
    (∃ r' op, t = s.refuse r' op) ∨ t = s := by
  rcases State.csrTurn_cases h with ⟨-, ht⟩ | ⟨-, -, ht⟩ | ⟨-, -, ht⟩
  · exact .inl ⟨_, _, ht⟩
  · exact .inl ⟨_, _, (Host.Outcome.next.inj ht).symm⟩
  · exact .inr ht

/-- The inversion of step: some offers are left, and on that state an operation has its effect, or REFUSED is set, or
nothing happens. -/
theorem step_effect {s t : State} (h : step s = .next t) :
    ∃ os, (∃ i, Effect { s with offers := os } i t) ∨ (∃ r op, t = State.refuse { s with offers := os } r op) ∨
      t = { s with offers := os } := by
  rcases step_cases s with ⟨o, os, i, -, -, -, he⟩ | ⟨o, os, r, -, -, -, he⟩ | ⟨i, -, -, he⟩ | ⟨-, -, he⟩
  · exact ⟨os, .inl ⟨i, exec_effect (he.symm.trans h)⟩⟩
  · exact ⟨os, .inr (refuseOffer_cases (he.symm.trans h))⟩
  · exact ⟨s.offers, .inl ⟨i, exec_effect (he.symm.trans h)⟩⟩
  · obtain rfl : s.rest = t := Host.Outcome.next.inj (he.symm.trans h)
    rcases s.rest_cases with ⟨-, hr⟩ | ⟨-, hr⟩
    · exact ⟨s.offers, .inr (.inl ⟨_, _, hr⟩)⟩
    · exact ⟨s.offers, .inr (.inr hr)⟩

/-! ### Words -/

/-- A word under one more mask keeps outside of what it was outside of. -/
theorem masked_and_eq_zero {w m : Word} (x : Word) (h : w &&& m = 0#32) : w &&& x &&& m = 0#32 := by
  rw [BitVec.and_assoc, BitVec.and_comm x, ← BitVec.and_assoc, h, BitVec.zero_and]

/-- A word under a mask has no bit outside of it. -/
theorem mask_and_not (w m : Word) : w &&& m &&& ~~~m = 0#32 := by simp [BitVec.and_assoc]

/-- Two words that keep outside of a mask do so together. -/
theorem or_and_eq_zero {v w m : Word} (hv : v &&& m = 0#32) (hw : w &&& m = 0#32) : (v ||| w) &&& m = 0#32 := by
  rw [BitVec.and_comm, BitVec.and_or_distrib_left, BitVec.and_comm m, BitVec.and_comm m, hv, hw, BitVec.or_zero]

/-- The bit of a line of bank 2 is in the low byte (R6, R168). -/
theorem bitAt_and_not_lowByte {k : Nat} (h : k < 8) : bitAt k &&& ~~~0xFF#32 = 0#32 := by
  decide +revert

/-- The mask of an identifier is the bit of a line of its bank (R12). -/
theorem bitmask_is_line {irq : BitVec 8} {b : Bank} (h : bankOfIrq irq = some b) :
    ∃ k, k < bankLines b ∧ bitmask irq = bitAt k := by
  refine ⟨irq.toNat % 32, ?_, rfl⟩
  rcases (bankOfIrq_eq_some irq b).1 h with ⟨rfl, _⟩ | ⟨rfl, _, _⟩ | ⟨rfl, _, _⟩ <;> simp only [bankLines] <;> omega

/-- CUR_BIT holds the bit S_SELECT found (R35). -/
theorem ofNat_msb32_toNat (w : Word) : (BitVec.ofNat 5 (msb32 w)).toNat = msb32 w :=
  (BitVec.toNat_ofNat _ _).trans (Nat.mod_eq_of_lt (msb32_lt w))

/-! ### The invariant of the engine -/

/-- The state with every field cleared that the invariant does not read. -/
def State.invView (s : State) : State :=
  { s with
    bsnap := 0#32, gmask := false, hwen0 := 0#32, hwen1 := 0#32, hwenb := 0#32, trace := [], refused := none, draws := 0
    readLog := [], offers := [] }

/-- The fields cleared are read by no clause of the invariant. -/
theorem engineInv_invView (s : State) : EngineInv s.invView ↔ EngineInv s := ⟨fun h => { h with }, fun h => { h with }⟩

/-- The invariant speaks of the fields of its view alone. -/
theorem EngineInv.congr {s t : State} (hs : EngineInv s) (h : t.invView = s.invView) : EngineInv t :=
  (engineInv_invView t).1 (h ▸ (engineInv_invView s).2 hs)

@[simp] theorem State.csrRead_invView (s : State) (r : CsrReg) : (s.csrRead r).invView = s.invView := by
  cases r <;> rfl

@[simp] theorem State.csrWrite_invView (s : State) (r : CsrReg) (v : Word) : (s.csrWrite r v).invView = s.invView := by
  cases r <;> rfl

/-- In Idle nothing is loaded and no handler runs. -/
theorem EngineInv.idle {s : State} (hs : EngineInv s) (hp : s.phase = .idle) :
    s.loaded = false ∧ s.awaiting = false := by
  have hl : s.loaded = false := Bool.eq_false_iff.2 fun h => by simpa [hp, Phase.bank] using hs.loadedInScan h
  exact ⟨hl, Bool.eq_false_iff.2 fun h => by simpa [hl] using hs.awaitLoaded h⟩

/-- With no bank loaded any legal phase keeps the invariant: what is said of W is said of a loaded bank. -/
theorem EngineInv.unload {s : State} (hs : EngineInv s) {p : Phase} (hp : p.isCorrupt = false) :
    EngineInv { s with phase := p, loaded := false, awaiting := false } :=
  { hs with
    phaseLegal := hp
    loadedInScan := nofun
    awaitLoaded := nofun
    awaitBit := nofun
    bank2Narrow := nofun
    filtered := nofun }

/-- Leaving the scan of a bank (R164, R167). -/
theorem EngineInv.leaveBank {s : State} (hs : EngineInv s) (ha : s.awaiting = false) (b : Bank) :
    EngineInv (s.leaveBank b) :=
  (hs.unload (nextPhase_legal b)).congr (by simp [State.invView, State.leaveBank, ha])

/-- Loading the filtered pending word of a bank (R164). -/
theorem EngineInv.load {s : State} (hs : EngineInv s) (ha : s.awaiting = false) {b : Bank}
    (hb : s.phase.bank = some b) : EngineInv { s with w := s.source b &&& s.shadow b, loaded := true } :=
  { hs with
    loadedInScan := fun _ => by simp [hb]
    awaitLoaded := fun _ => rfl
    awaitBit := fun h => by simp [ha] at h
    bank2Narrow := fun hp _ => by
      obtain rfl : b = .b2 := by simpa [show s.phase = .bank2Scan from hp, Phase.bank] using hb.symm
      exact masked_and_eq_zero _ (mask_and_not _ _)
    filtered := fun b' hb' _ => by
      obtain rfl : b = b' := Option.some.inj (hb.symm.trans hb')
      exact mask_and_not _ _ }

/-- Serving a bit of W: it is cleared, and no call is outstanding (R166, R169). -/
theorem EngineInv.serve {s : State} (hs : EngineInv s) (k : Nat) :
    EngineInv { s with w := clearBit s.w k, awaiting := false } :=
  { hs with
    awaitLoaded := nofun
    awaitBit := nofun
    bank2Narrow := fun hp hl => masked_and_eq_zero _ (hs.bank2Narrow hp hl)
    filtered := fun b hb hl => masked_and_eq_zero _ (hs.filtered b hb hl) }

/-- Calling the handler of the highest bit of a loaded word (R166). -/
theorem EngineInv.callHandler {s : State} (hs : EngineInv s) (hl : s.loaded = true) (hw : s.w ≠ 0#32) (b : Bank)
    (e : VtEntry) : EngineInv (s.callHandler b (msb32 s.w) e) :=
  { hs with
    awaitLoaded := fun _ => hl
    awaitBit := fun _ => (ofNat_msb32_toNat s.w).symm ▸ msb32_set s.w hw }

/-- Storing an entry whose handler is 0 where it is empty (R140). -/
theorem EngineInv.setVt {s : State} (hs : EngineInv s) (irq : Nat) {e : VtEntry}
    (he : e.hvalid = false → e.handler = 0#32) : EngineInv (s.setVt irq e) :=
  { hs with
    emptyHandlers := fun j e' hj hv => by
      rw [State.vtEntry_setVt] at hj
      split at hj
      · split at hj
        · obtain rfl := Option.some.inj hj
          exact he hv
        · cases hj
      · exact hs.emptyHandlers j e' hj hv }

/-- The mask of a pending commit of SHADOW[2] is one of its 8 lines (R141, R142). -/
theorem EngineInv.commit_shadow2Narrow {s : State} (hs : EngineInv s) : s.commit.shadow2 &&& ~~~0xFF#32 = 0#32 := by
  have hold : s.shadow .b2 &&& ~~~0xFF#32 = 0#32 := hs.shadow2Narrow
  have hpend := hs.pendOneLine
  change s.commit.shadow .b2 &&& ~~~0xFF#32 = 0#32
  rw [State.commit_shadow]
  cases ht : s.tpend with
  | none => exact hold
  | set b m =>
    rw [ht] at hpend
    obtain ⟨k, hk, rfl⟩ := hpend
    dsimp only
    split_ifs with hb
    · subst hb
      exact or_and_eq_zero hold (bitAt_and_not_lowByte hk)
    · exact hold
  | clr b m =>
    dsimp only
    split_ifs
    · exact masked_and_eq_zero _ hold
    · exact hold

/-- A shadow commit in Idle: no bank is loaded, so no W is held against the mask (R143). -/
theorem EngineInv.commit {s : State} (hs : EngineInv s) (hp : s.phase = .idle) : EngineInv s.commit := by
  obtain ⟨hl, ha⟩ := hs.idle hp
  exact {
    phaseLegal := by simp [hp, Phase.isCorrupt, Phase.code]
    loadedInScan := by simp [hl]
    awaitLoaded := by simp [ha]
    awaitBit := by simp [ha]
    bank2Narrow := by simp [hl]
    filtered := by simp [hl]
    shadow2Narrow := hs.commit_shadow2Narrow
    pendOneLine := by simp [TPend.oneLine]
    emptyHandlers := by simpa [State.vtEntry] using hs.emptyHandlers
    inputsCoherent := by simpa using hs.inputsCoherent }

/-- Every effect of an operation keeps the invariant. -/
theorem Effect.keeps_engineInv {s t : State} {i : Instr} (he : Effect s i t) (hs : EngineInv s) : EngineInv t := by
  cases he with
  | corrupt | inHandler | block | unblock => exact hs.congr rfl
  | waits | ignored => exact hs
  | read r => exact hs.congr (s.csrRead_invView r)
  | write r v => exact hs.congr (s.csrWrite_invView r v)
  | register irq v handler context => exact (hs.setVt irq.toNat (by rintro rfl; rfl)).congr rfl
  | enable irq b _ hi =>
    exact { hs.congr (s.csrWrite_invView (enablePort b) (bitmask irq)) with pendOneLine := bitmask_is_line hi }
  | disable irq b _ hi =>
    exact { hs.congr (s.csrWrite_invView (disablePort b) (bitmask irq)) with pendOneLine := bitmask_is_line hi }
  | entry => exact hs.unload rfl
  | hret => exact hs.serve _
  | env basic pend1 pend2 hg => exact { hs with inputsCoherent := hg }
  | bsr _ ha => exact (hs.unload (p := .bank0Scan) rfl).congr (by simp [State.invView, State.snapshot, ha])
  | load b hb _ ha => exact hs.load ha hb
  | skip b _ _ ha | done b _ _ ha => exact hs.leaveBank ha b
  | call b e _ hl _ hw => exact hs.callHandler hl hw b e
  | noHandler b e _ _ ha => exact (hs.serve (msb32 s.w)).congr (by simp [State.invView, ha])
  | commit hp => exact hs.commit hp

end Sys2Proof.Machine

/-- Settles O3: an operation's effect keeps the invariant, and the list of offers and REFUSED are no part of it. -/
theorem everyStepKeepsTheInvariant : Obligations.EveryStepKeepsTheInvariant := by
  intro s t hs hstep
  obtain ⟨os, ⟨i, he⟩ | ⟨r, op, rfl⟩ | rfl⟩ := step_effect hstep
  · exact he.keeps_engineInv (hs.congr rfl)
  · exact hs.congr rfl
  · exact hs.congr rfl

namespace Sys2Proof.Machine

/-! ### What an operation leaves of REFUSED, the table, the masks, the gate and TRACE -/

@[simp] theorem State.csrRead_shadow (s : State) (r : CsrReg) (b : Bank) : (s.csrRead r).shadow b = s.shadow b := by
  cases r <;> rfl

@[simp] theorem State.csrWrite_shadow (s : State) (r : CsrReg) (v : Word) (b : Bank) :
    (s.csrWrite r v).shadow b = s.shadow b := by
  cases r <;> rfl

/-- No effect drops a refusal (R58). -/
theorem Effect.keeps_refused {s t : State} {i : Instr} {m : RefusedMark} (he : Effect s i t)
    (hm : s.refused = some m) : t.refused = some m := by
  cases he with
  | corrupt | inHandler => exact State.refuse_keeps_first hm
  | write r v => exact State.csrWrite_keeps_refused hm
  | _ => simpa using hm

/-- VT is written by an in-range REGISTER of THREAD alone (R50). -/
theorem Effect.vt_cases {s t : State} {i : Instr} (he : Effect s i t) :
    t.vt = s.vt ∨ s.threadMayCommand ∧ ∃ irq v d0 ctx, i = .register irq v d0 ctx ∧ irq.toNat < 72 := by
  cases he with
  | register irq v handler context h hi => exact .inr ⟨h, irq, v, handler, context, rfl, hi⟩
  | _ => exact .inl (by simp)

/-- SHADOW is written by S_COMMIT in Idle alone (R51). -/
theorem Effect.shadow_cases {s t : State} {i : Instr} (he : Effect s i t) :
    (∀ b, t.shadow b = s.shadow b) ∨ i = .sCommit ∧ s.phase = .idle := by
  cases he with
  | commit hp => exact .inr ⟨rfl, hp⟩
  | read r => exact .inl (s.csrRead_shadow r)
  | write r v => exact .inl (s.csrWrite_shadow r v)
  | enable irq b => exact .inl (s.csrWrite_shadow (enablePort b) (bitmask irq))
  | disable irq b => exact .inl (s.csrWrite_shadow (disablePort b) (bitmask irq))
  | _ => exact .inl fun _ => rfl

/-- The gate is written by BLOCK, UNBLOCK and an in-range REGISTER of THREAD alone (R36). -/
theorem Effect.gmask_cases {s t : State} {i : Instr} (he : Effect s i t) :
    t.gmask = s.gmask ∨ s.threadMayCommand ∧
      ((i = .block ∧ t.gmask = true) ∨ (i = .unblock ∧ t.gmask = false) ∨
        ∃ irq v d0 ctx, i = .register irq v d0 ctx ∧ irq.toNat < 72 ∧ t.gmask = false) := by
  cases he with
  | block h => exact .inr ⟨h, .inl ⟨rfl, rfl⟩⟩
  | unblock h => exact .inr ⟨h, .inr (.inl ⟨rfl, rfl⟩)⟩
  | register irq v handler context h hi => exact .inr ⟨h, .inr (.inr ⟨irq, v, handler, context, rfl, hi, rfl⟩)⟩
  | _ => exact .inl (by simp)

/-- TRACE is written by the call of S_SELECT alone, which appends one event (R57). -/
theorem Effect.trace_cases {s t : State} {i : Instr} (he : Effect s i t) :
    t.trace = s.trace ∨ i = .sSelect ∧ ∃ c, t.trace = s.trace ++ [c] := by
  cases he with
  | call b e => exact .inr ⟨rfl, _, s.callHandler_trace b (msb32 s.w) e⟩
  | _ => exact .inl (by simp)

end Sys2Proof.Machine

/-- Settles O52: no effect drops a refusal, and no other part of a step does. -/
theorem theFirstRefusalIsKept : Obligations.TheFirstRefusalIsKept := by
  intro s t r hstep hr
  obtain ⟨os, ⟨i, he⟩ | ⟨r', op, rfl⟩ | rfl⟩ := step_effect hstep
  · exact he.keeps_refused hr
  · exact State.refuse_keeps_first hr
  · exact hr

/-- Settles O54, from the operations that write VT and SHADOW. -/
theorem tableAndShadowChangeOnlyByThread : Obligations.TableAndShadowChangeOnlyByThread := by
  intro i s t hexec
  have he := exec_effect hexec
  exact ⟨he.vt_cases.resolve_left, fun ⟨b, hb⟩ => he.shadow_cases.resolve_left fun hsame => hb (hsame b)⟩

/-- Settles O55, from the operations that write the gate. -/
theorem theGateMovesByThreeCommandsOnly : Obligations.TheGateMovesByThreeCommandsOnly :=
  fun _ _ _ hexec => (exec_effect hexec).gmask_cases.resolve_left

/-- Settles O57, from the one operation that writes TRACE. -/
theorem traceGrowsBySelectAlone : Obligations.TraceGrowsBySelectAlone := by
  constructor
  · intro s t hstep
    obtain ⟨os, ⟨i, he⟩ | ⟨r, op, rfl⟩ | rfl⟩ := step_effect hstep
    · exact he.trace_cases.imp_right And.right
    · exact .inl rfl
    · exact .inl rfl
  · intro i s t hexec hi
    exact (exec_effect hexec).trace_cases.resolve_right fun h => hi h.1

namespace Sys2Proof.Machine

/-! ### Reset -/

/-- After reset every entry of the table is empty (R59). -/
theorem vtEntry_reset {irq : Nat} {e : VtEntry} (h : State.reset.vtEntry irq = some e) : e = VtEntry.empty := by
  simp only [State.vtEntry, State.reset, Vector.getElem?_replicate] at h
  split at h
  · exact (Option.some.inj h).symm
  · cases h

end Sys2Proof.Machine

/-- Settles O2: nothing is loaded, pending or registered after reset, and inputs of 0 are coherent (log 5). -/
theorem resetMeetsTheInvariant : Obligations.ResetMeetsTheInvariant where
  phaseLegal := rfl
  loadedInScan := nofun
  awaitLoaded := nofun
  awaitBit := nofun
  bank2Narrow := nofun
  filtered := nofun
  shadow2Narrow := rfl
  pendOneLine := trivial
  emptyHandlers := fun _ e he _ => by rw [vtEntry_reset he]; rfl
  inputsCoherent := by
    have hcoherent : coherentInputs 0#32 0#32 0#32 = true := rfl
    simp [payloadOffered, State.reset, hcoherent]

namespace Sys2Proof.Machine

/-! ### Who may act -/

/-- Who may issue finds no corrupt PHASE: it is the HANDLER, or PHASE is Idle. -/
theorem State.mayIssue.findsCorruptPhase {s : State} (h : s.mayIssue) : s.findsCorruptPhase = false := by
  rcases h with ha | ⟨hp, -⟩
  · exact State.findsCorruptPhase_of_awaiting ha
  · exact State.findsCorruptPhase_of_legal (by rw [hp]; rfl)

/-- A CSR access or a command is enabled in its issuer's turn (R31). -/
theorem enabled_transaction {i : Instr} (s : State) (h : isCsrOperation i ∨ isCommand i) :
    enabled i s = (s.findsCorruptPhase || s.issuerGuard) := by
  cases i with
  | entry | hret | env | sBsr | sLoad | sSelect | sDone | sCommit => rcases h with h | h <;> cases h
  | _ => rfl

/-- A coherent payload is offered, whatever SUMMARY_COHERENT is (R171). -/
theorem envGuard_of_coherent {basic pend1 pend2 : Word} (h : coherentInputs basic pend1 pend2 = true) :
    envGuard basic pend1 pend2 = true := by
  simp [envGuard, payloadOffered, h]

/-- The guards, clause by clause (R160 to R167, R143). -/
theorem State.entryGuard_iff (s : State) : s.entryGuard = true ↔ s.phase = .idle ∧ s.gmask = false := by
  simp [State.entryGuard]

theorem State.bsrGuard_iff (s : State) : s.bsrGuard = true ↔ s.phase = .basicStatusRead ∧ s.awaiting = false := by
  simp [State.bsrGuard]

theorem State.loadGuard_iff (s : State) :
    s.loadGuard = true ↔ s.phase.bank.isSome = true ∧ s.loaded = false ∧ s.awaiting = false := by
  simp [State.loadGuard, and_assoc]

theorem State.selectGuard_iff (s : State) :
    s.selectGuard = true ↔ s.phase.bank.isSome = true ∧ s.loaded = true ∧ s.awaiting = false ∧ s.w ≠ 0#32 := by
  simp [State.selectGuard, and_assoc]

theorem State.doneGuard_iff (s : State) :
    s.doneGuard = true ↔ s.phase.bank.isSome = true ∧ s.loaded = true ∧ s.awaiting = false ∧ s.w = 0#32 := by
  simp [State.doneGuard, and_assoc]

theorem State.commitGuard_iff (s : State) : s.commitGuard = true ↔ s.phase = .idle ∧ s.tpend ≠ .none := by
  simp [State.commitGuard]

end Sys2Proof.Machine

/-- Settles O16: in a legal phase an operation can be taken exactly where its guard holds. -/
theorem theGuardsOfTheOperations : Obligations.TheGuardsOfTheOperations := by
  intro s hlegal
  have guard_alone (g : Bool) : (s.findsCorruptPhase || g) = g := by
    rw [State.findsCorruptPhase_of_legal hlegal, Bool.false_or]
  refine ⟨fun i hi => ?_, ?_, ?_, ?_, ?_, ?_, Iff.rfl, ?_, fun b p1 p2 => envGuard_of_coherent⟩
  · rw [enabled_transaction s hi, guard_alone, State.issuerGuard_iff]
  · rw [enabled, guard_alone, State.entryGuard_iff]
  · rw [enabled, guard_alone, State.bsrGuard_iff]
  · rw [enabled, guard_alone, State.loadGuard_iff]
  · rw [enabled, guard_alone, State.selectGuard_iff]
  · rw [enabled, guard_alone, State.doneGuard_iff]
  · rw [enabled, guard_alone, State.commitGuard_iff]

namespace Sys2Proof.Machine

/-- A scan phase is neither Idle nor BasicStatusRead (R161). -/
theorem Phase.ne_of_bank_isSome {p : Phase} (h : p.bank.isSome = true) : p ≠ .idle ∧ p ≠ .basicStatusRead :=
  ⟨fun hp => by simp [hp, Phase.bank] at h, fun hp => by simp [hp, Phase.bank] at h⟩

/-- The row of the dispatcher's table that a state of the invariant is in (R161). -/
def State.dispatcherStep (s : State) : Instr :=
  if s.awaiting then .hret
  else if s.phase = .idle then .entry
  else if s.phase = .basicStatusRead then .sBsr
  else if !s.loaded then .sLoad
  else if s.w = 0#32 then .sDone
  else .sSelect

/-- The dispatcher's step that is enabled is the one of the state's row (R161). -/
theorem dispatcherStep_of_enabled {s : State} {i : Instr} (hs : EngineInv s) (hi : i ∈ dispatcherSteps)
    (hen : enabled i s = true) : s.dispatcherStep = i := by
  obtain ⟨-, hentry, hbsr, hload, hselect, hdone, hhret, -, -⟩ := theGuardsOfTheOperations s hs.phaseLegal
  simp only [dispatcherSteps, List.mem_cons, List.not_mem_nil, or_false] at hi
  rcases hi with rfl | rfl | rfl | rfl | rfl | rfl
  · obtain ⟨hp, -⟩ := hentry.1 hen
    simp [State.dispatcherStep, hp, (hs.idle hp).2]
  · obtain ⟨hp, ha⟩ := hbsr.1 hen
    simp [State.dispatcherStep, hp, ha]
  · obtain ⟨hb, hl, ha⟩ := hload.1 hen
    simp [State.dispatcherStep, Phase.ne_of_bank_isSome hb, hl, ha]
  · obtain ⟨hb, hl, ha, hw⟩ := hselect.1 hen
    simp [State.dispatcherStep, Phase.ne_of_bank_isSome hb, hl, ha, hw]
  · obtain ⟨hb, hl, ha, hw⟩ := hdone.1 hen
    simp [State.dispatcherStep, Phase.ne_of_bank_isSome hb, hl, ha, hw]
  · simp [State.dispatcherStep, hhret.1 hen]

end Sys2Proof.Machine

/-- Settles O17: THREAD acts in Idle, HANDLER while AWAIT = 1, the ENGINE's internal steps in neither; and the
dispatcher's enabled step is that of the row its state is in. -/
theorem atMostOneAgentIsEnabled : Obligations.AtMostOneAgentIsEnabled := by
  intro s hs thread handler engine
  obtain ⟨-, -, hbsr, hload, hselect, hdone, -, hcommit, -⟩ := theGuardsOfTheOperations s hs.phaseLegal
  have thread_idle (h : thread) : s.phase = .idle ∧ s.awaiting = false := by
    rcases h with ⟨ha, hp, -⟩ | h
    · exact ⟨hp, ha⟩
    · obtain ⟨hp, -⟩ := hcommit.1 h
      exact ⟨hp, (hs.idle hp).2⟩
  have engine_busy (h : engine) : s.phase ≠ .idle ∧ s.awaiting = false := by
    rcases h with h | h | h | h
    · obtain ⟨hp, ha⟩ := hbsr.1 h
      exact ⟨by simp [hp], ha⟩
    · obtain ⟨hb, -, ha⟩ := hload.1 h
      exact ⟨(Phase.ne_of_bank_isSome hb).1, ha⟩
    · obtain ⟨hb, -, ha, -⟩ := hselect.1 h
      exact ⟨(Phase.ne_of_bank_isSome hb).1, ha⟩
    · obtain ⟨hb, -, ha, -⟩ := hdone.1 h
      exact ⟨(Phase.ne_of_bank_isSome hb).1, ha⟩
  have handler_awaits (h : handler) : s.awaiting ≠ false := Bool.ne_false_iff.2 h
  refine ⟨fun ⟨ht, hh⟩ => handler_awaits hh (thread_idle ht).2, fun ⟨ht, he⟩ => (engine_busy he).1 (thread_idle ht).1,
    fun ⟨hh, he⟩ => handler_awaits hh (engine_busy he).2, fun i hi j hj hien hjen => ?_⟩
  exact (dispatcherStep_of_enabled hs hi hien).symm.trans (dispatcherStep_of_enabled hs hj hjen)

namespace Sys2Proof.Machine

/-! ### A corrupt PHASE, and a refused transaction -/

/-- No internal step leaves a PHASE of 5, 6 or 7 (R33). -/
theorem internalStep_corrupt {s : State} (h : s.phase.isCorrupt = true) : internalStep s = none := by
  unfold internalStep
  split
  · rfl
  · cases hp : s.phase with
    | corrupt5 | corrupt6 | corrupt7 => rfl
    | _ => rw [hp] at h; cases h

/-- With no offer and no internal step to take the machine rests (log 10). -/
theorem step_rest {s : State} (hnone : nextOffer s = none) (hinternal : internalStep s = none) :
    step s = .next s.rest := by
  simp [step, hnone, hinternal]

/-- A refused transaction, of an issuer that may issue, sets REFUSED (R70, R96). -/
theorem refuseOffer_of_mayIssue {s : State} (r : RefuseReason) (o : Offer) (h : s.mayIssue) :
    refuseOffer r o s = .next (s.refuse r (.transaction o)) :=
  State.csrTurn_taken _ h.findsCorruptPhase (s.issuerGuard_iff.2 h)

/-- A refused transaction is taken in its issuer's turn (R31). -/
theorem ready_refused {s : State} {o : Offer} {r : RefuseReason} (hd : decode o = .refuse r)
    (hfits : issuerFits o s = true) (h : s.mayIssue) : ready o s = true := by
  simp [ready, hd, hfits, s.issuerGuard_iff.2 h]

/-- A step takes the ready offer at the head of the list. -/
theorem step_head {s : State} {o : Offer} {os : List Offer} (ho : s.offers = o :: os) (hr : ready o s = true) :
    step s = runOffer o { s with offers := os } := by
  simp [step, nextOffer_head ho hr]

end Sys2Proof.Machine

/-- Settles O13: the transaction is ready at the head of the list, and its run sets REFUSED. -/
theorem stepMarksARefusedTransaction : Obligations.StepMarksARefusedTransaction := by
  intro s o os r ho hd hfits hmay
  rw [step_head ho (ready_refused hd hfits hmay), runOffer, hd]
  exact refuseOffer_of_mayIssue (s := { s with offers := os }) r o hmay

/-- Settles O45: a turn in a corrupt phase is refused, and so is the ENGINE's step, for no internal step leaves one. -/
theorem aCorruptPhaseIsRefused : Obligations.ACorruptPhaseIsRefused := by
  intro s ha hcode marked
  have hphase : s.phase.isCorrupt = true := by simpa [Phase.isCorrupt] using hcode
  have hcorrupt : s.findsCorruptPhase = true := by simp [State.findsCorruptPhase, ha, hphase]
  constructor
  · intro i hret henv
    obtain ⟨g, k, -, hturn⟩ := exec_eq_turn s hret henv
    rw [hturn, State.turn_corrupt k hcorrupt]
    rfl
  · intro hnone
    rw [step_rest hnone (internalStep_corrupt hphase), State.rest, if_pos hcorrupt]
    rfl

namespace Sys2Proof.Machine

/-! ### IRQ_LINE -/

/-- Two words have a bit in common exactly where their conjunction is not 0. -/
theorem and_bne_zero_iff (v w : Word) :
    (v &&& w != 0#32) = true ↔ ∃ k, k < 32 ∧ v.getLsbD k = true ∧ w.getLsbD k = true := by
  rw [bne_iff_ne]
  constructor
  · intro h
    by_contra hnone
    push Not at hnone
    refine h (word_eq_zero_of_bits _ fun k hk => ?_)
    simpa using hnone k hk
  · rintro ⟨k, -, hv, hw⟩ h
    have hbit := congrArg (BitVec.getLsbD · k) h
    simp [hv, hw] at hbit

/-- The bits of the low byte of a word. -/
theorem lowByte_getLsbD (w : Word) (k : Nat) : (w &&& 0xFF#32).getLsbD k = (decide (k < 8) && w.getLsbD k) := by
  have hmask : (0xFF#32).getLsbD k = decide (k < 8) := by
    rw [BitVec.getLsbD_ofNat, show (0xFF : Nat) = 2 ^ 8 - 1 from rfl, Nat.testBit_two_pow_sub_one]
    by_cases hk : k < 8 <;> simp [hk]
    omega
  rw [BitVec.getLsbD_and, hmask, Bool.and_comm]

end Sys2Proof.Machine

/-- Settles O26: each of IRQ_LINE's three words is not 0 exactly where it has a bit. -/
theorem irqLineIsAnEnabledPendingLine : Obligations.IrqLineIsAnEnabledPendingLine := by
  intro s
  have hlow (k : Nat) : (k < 32 ∧ (s.inBasic &&& 0xFF#32).getLsbD k = true ∧ (s.hwenb &&& 0xFF#32).getLsbD k = true) ↔
      k < 8 ∧ s.inBasic.getLsbD k = true ∧ s.hwenb.getLsbD k = true := by
    simp only [lowByte_getLsbD, Bool.and_eq_true, decide_eq_true_eq]
    constructor
    · rintro ⟨-, ⟨hk, hi⟩, -, he⟩
      exact ⟨hk, hi, he⟩
    · rintro ⟨hk, hi, he⟩
      exact ⟨by omega, ⟨hk, hi⟩, hk, he⟩
  simp only [State.irqLine, Bool.or_eq_true, and_bne_zero_iff, hlow, or_assoc]

namespace Sys2Proof.Machine

/-! ### The list of offers -/

/-- The state with another list of offers. -/
def State.withOffers (os : List Offer) (s : State) : State := { s with offers := os }

/-- A result with another list of offers in its next state. -/
def resultWithOffers (os : List Offer) : Result → Result
  | .next t => .next (t.withOffers os)
  | .fault r => .fault r
  | .refused r => .refused r

/-- An effect that looks at no offer: with other offers it leaves the same state, with those offers. -/
def IgnoresOffers (k : State → Result) : Prop := ∀ s os, k (s.withOffers os) = resultWithOffers os (k s)

/-- An effect that always leaves a next state looks at no offer where that next state depends on none. -/
theorem ignoresOffers_next {f : State → State} (h : ∀ s os, f (s.withOffers os) = (f s).withOffers os) :
    IgnoresOffers fun s => .next (f s) :=
  fun s os => congrArg Host.Outcome.next (h s os)

/-- A choice by what is no offer, between effects that look at no offer. -/
theorem ignoresOffers_ite {c : State → Bool} {k l : State → Result} (hc : ∀ s os, c (s.withOffers os) = c s)
    (hk : IgnoresOffers k) (hl : IgnoresOffers l) : IgnoresOffers fun s => if c s then k s else l s := by
  intro s os
  dsimp only
  rw [hc, hk, hl, apply_ite (resultWithOffers os)]

/-- A turn looks at no offer, where its effect does not. -/
theorem ignoresOffers_turn (op : Operation) {g : State → Bool} {k : State → Result}
    (hg : ∀ s os, g (s.withOffers os) = g s) (hk : IgnoresOffers k) : IgnoresOffers fun s => s.turn op (g s) k :=
  ignoresOffers_ite (c := State.findsCorruptPhase) (fun _ _ => rfl) (ignoresOffers_next fun _ _ => rfl)
    (ignoresOffers_ite hg hk (ignoresOffers_next fun _ _ => rfl))

/-- A command looks at no offer, where its effect does not. -/
theorem ignoresOffers_cmdTurn (i : Instr) (word : Word) {k : State → Result} (hk : IgnoresOffers k) :
    IgnoresOffers fun s => s.cmdTurn i word k :=
  ignoresOffers_turn (.instr i) (g := State.issuerGuard) (fun _ _ => rfl)
    (ignoresOffers_ite (c := State.awaiting) (fun _ _ => rfl) (ignoresOffers_next fun _ _ => rfl) hk)

/-- A scan step looks at no offer, where its effect on a bank does not. -/
theorem ignoresOffers_inBank {k : State → Bank → Result} (hk : ∀ b, IgnoresOffers fun s => k s b) :
    IgnoresOffers fun s => s.inBank (k s) := by
  intro s os
  simp only [State.inBank, show (s.withOffers os).phase = s.phase from rfl]
  cases s.phase.bank with
  | none => rfl
  | some b => exact hk b s os

/-- S_SELECT looks at no offer. -/
theorem ignoresOffers_selectIn (b : Bank) : IgnoresOffers fun s => s.selectIn b := by
  intro s os
  simp only [State.selectIn, show (s.withOffers os).vtEntry = s.vtEntry from rfl,
    show (s.withOffers os).w = s.w from rfl]
  cases s.vtEntry (bankBase b + msb32 s.w) with
  | none => rfl
  | some e => cases hv : e.hvalid <;> simp only [hv] <;> rfl

/-- S_LOAD looks at no offer. -/
theorem State.loadBank_withOffers (b : Bank) (s : State) (os : List Offer) :
    (s.withOffers os).loadBank b = (s.loadBank b).withOffers os := by
  rw [State.loadBank, State.loadBank, apply_ite (State.withOffers os)]
  cases b <;> rfl

/-- The shadow commit looks at no offer. -/
theorem State.commit_withOffers (s : State) (os : List Offer) : (s.withOffers os).commit = s.commit.withOffers os := by
  simp only [State.commit, show (s.withOffers os).tpend = s.tpend from rfl]
  cases s.tpend with
  | none => rfl
  | set b m | clr b m => cases b <;> rfl

/-- No operation looks at the list of offers (log 8). -/
theorem exec_ignoresOffers (i : Instr) : IgnoresOffers (exec i) := by
  cases i with
  | register irq v handler context =>
    refine ignoresOffers_cmdTurn _ _ ?_
    split
    · exact ignoresOffers_next fun _ _ => rfl
    · exact ignoresOffers_next fun _ _ => rfl
  | enable irq | disable irq =>
    refine ignoresOffers_cmdTurn _ _ ?_
    cases bankOfIrq irq with
    | none => exact ignoresOffers_next fun _ _ => rfl
    | some b => exact ignoresOffers_next fun s os => by cases b <;> rfl
  | block | unblock => exact ignoresOffers_cmdTurn _ _ (ignoresOffers_next fun _ _ => rfl)
  | hret =>
    exact ignoresOffers_ite (fun _ _ => rfl) (ignoresOffers_next fun _ _ => rfl) (ignoresOffers_next fun _ _ => rfl)
  | env basic pend1 pend2 =>
    exact ignoresOffers_ite (c := fun _ => envGuard basic pend1 pend2) (fun _ _ => rfl)
      (ignoresOffers_next fun _ _ => rfl) (ignoresOffers_next fun _ _ => rfl)
  | entry => exact ignoresOffers_turn _ (g := State.entryGuard) (fun _ _ => rfl) (ignoresOffers_next fun _ _ => rfl)
  | sBsr => exact ignoresOffers_turn _ (g := State.bsrGuard) (fun _ _ => rfl) (ignoresOffers_next fun _ _ => rfl)
  | sLoad =>
    exact ignoresOffers_turn _ (g := State.loadGuard) (fun _ _ => rfl)
      (ignoresOffers_inBank fun b => ignoresOffers_next (State.loadBank_withOffers b))
  | sSelect =>
    exact ignoresOffers_turn _ (g := State.selectGuard) (fun _ _ => rfl) (ignoresOffers_inBank ignoresOffers_selectIn)
  | sDone =>
    exact ignoresOffers_turn _ (g := State.doneGuard) (fun _ _ => rfl)
      (ignoresOffers_inBank fun b => ignoresOffers_next fun _ _ => rfl)
  | sCommit =>
    exact ignoresOffers_turn _ (g := State.commitGuard) (fun _ _ => rfl) (ignoresOffers_next State.commit_withOffers)
  | _ => exact ignoresOffers_turn _ (g := State.issuerGuard) (fun _ _ => rfl) (ignoresOffers_next fun _ _ => rfl)

/-- With other offers an operation leaves the same state, with those offers. -/
theorem exec_withOffers {i : Instr} {s t : State} (os : List Offer) (h : exec i s = .next t) :
    exec i { s with offers := os } = .next { t with offers := os } :=
  (exec_ignoresOffers i s os).trans (congrArg (resultWithOffers os) h)

/-- No operation takes an offer off the list or adds one. -/
theorem exec_offers {i : Instr} {s t : State} (h : exec i s = .next t) : t.offers = s.offers := by
  have hsame : exec i s = .next { t with offers := s.offers } := exec_withOffers (s := s) s.offers h
  rw [Host.Outcome.next.inj (h.symm.trans hsame)]

end Sys2Proof.Machine

namespace Sys2Proof

/-! ### Encoding -/

/-- A command word under a mask, field by field (R93). -/
theorem cmdWord_and (op op' : BitVec 4) (rsv : BitVec 19) (v v' : Bool) (irq irq' : BitVec 8) :
    cmdWord op v irq &&& (op' ++ rsv ++ BitVec.ofBool v' ++ irq') = cmdWord (op &&& op') (v && v') (irq &&& irq') := by
  have hsplit : (op ++ 0#19 ++ BitVec.ofBool v ++ irq) &&& (op' ++ rsv ++ BitVec.ofBool v' ++ irq') =
      (op &&& op') ++ 0#19 ++ BitVec.ofBool (v && v') ++ (irq &&& irq') := by
    rw [BitVec.and_append, BitVec.and_append, BitVec.and_append, BitVec.zero_and, BitVec.ofBool_and_ofBool]
  exact hsplit

/-- REGISTER's mask leaves OP of a command word (R94). -/
theorem cmdWord_and_registerMask (op : BitVec 4) (v : Bool) (irq : BitVec 8) :
    cmdWord op v irq &&& 0xFFFFFE00#32 = cmdWord op false 0#8 := by
  have hmask : 0xFFFFFE00#32 = 0xF#4 ++ 0x7FFFF#19 ++ BitVec.ofBool false ++ 0#8 := by decide
  rw [hmask, cmdWord_and, show 0xF#4 = BitVec.allOnes 4 from rfl, BitVec.and_allOnes, Bool.and_false, BitVec.and_zero]

/-- The mask of ENABLE and DISABLE leaves OP and V (R94). -/
theorem cmdWord_and_enableMask (op : BitVec 4) (v : Bool) (irq : BitVec 8) :
    cmdWord op v irq &&& 0xFFFFFF00#32 = cmdWord op v 0#8 := by
  have hmask : 0xFFFFFF00#32 = 0xF#4 ++ 0x7FFFF#19 ++ BitVec.ofBool true ++ 0#8 := by decide
  rw [hmask, cmdWord_and, show 0xF#4 = BitVec.allOnes 4 from rfl, BitVec.and_allOnes, Bool.and_true, BitVec.and_zero]

/-- The fields of a command word are what it was made from (R93). -/
@[simp] theorem cmdIrq_cmdWord (op : BitVec 4) (v : Bool) (irq : BitVec 8) : cmdIrq (cmdWord op v irq) = irq :=
  BitVec.extractLsb'_append_eq_right

@[simp] theorem cmdValid_cmdWord (op : BitVec 4) (v : Bool) (irq : BitVec 8) : cmdValid (cmdWord op v irq) = v := by
  have hbit : (op ++ 0#19 ++ BitVec.ofBool v ++ irq).getLsbD 8 = v := by
    rw [BitVec.getLsbD_append, if_neg (by decide), BitVec.getLsbD_append, if_pos (by decide)]
    cases v <;> rfl
  exact hbit

/-- REGISTER words decode to their row, the handler as R95 says (R94). -/
theorem decodeCmd_registerWord (v : Bool) (irq : BitVec 8) (d0 d1 : Word) :
    decodeCmd (registerWord v irq) d0 d1 = .instr (.register irq v (if v then d0 else 0#32) d1) := by
  simp only [decodeCmd, registerWord, cmdWord_and_registerMask, cmdIrq_cmdWord, cmdValid_cmdWord]
  exact if_pos (by decide)

/-- R94. -/
theorem decodeCmd_enableWord (irq : BitVec 8) (d0 d1 : Word) :
    decodeCmd (enableWord irq) d0 d1 = .instr (.enable irq) := by
  simp only [decodeCmd, enableWord, cmdWord_and_registerMask, cmdWord_and_enableMask, cmdIrq_cmdWord]
  rw [if_neg (by decide), if_pos (by decide)]

/-- R94. -/
theorem decodeCmd_disableWord (irq : BitVec 8) (d0 d1 : Word) :
    decodeCmd (disableWord irq) d0 d1 = .instr (.disable irq) := by
  simp only [decodeCmd, disableWord, cmdWord_and_registerMask, cmdWord_and_enableMask, cmdIrq_cmdWord]
  rw [if_neg (by decide), if_neg (by decide), if_pos (by decide)]

/-- Decoding the encoding of an operation gives it back; an empty REGISTER has handler 0 (R95). -/
theorem decode_encode (who : Issuer) {i : Instr} (hwf : i.WellFormed) : decode (encode who i) = .instr i := by
  cases i with
  | register irq v handler context =>
    refine (decodeCmd_registerWord v irq handler context).trans ?_
    cases v with
    | true => rfl
    | false => rw [show handler = 0#32 from eq_of_beq hwf]; rfl
  | enable irq => exact decodeCmd_enableWord irq 0#32 0#32
  | disable irq => exact decodeCmd_disableWord irq 0#32 0#32
  | _ => rfl

end Sys2Proof

namespace Sys2Proof.Machine

/-! ### Runs of a schedule -/

/-- An encoding by the issuer in turn fits (R31). -/
theorem issuerFits_encode (i : Instr) (s : State) : issuerFits (encode s.issuer i) s = true := by
  cases i <;> simp [encode, readOffer, writeOffer, issuerFits]

/-- The encoding of an enabled operation by the issuer in turn is ready. -/
theorem ready_encode {i : Instr} {s : State} (hwf : i.WellFormed) (hen : enabled i s = true) :
    ready (encode s.issuer i) s = true := by
  simp [ready, decode_encode s.issuer hwf, issuerFits_encode, hen]

/-- Whether an operation is enabled does not depend on the offers. -/
theorem enabled_withOffers (i : Instr) (s : State) (os : List Offer) :
    enabled i { s with offers := os } = enabled i s := by
  cases i <;> rfl

/-- An enabled operation offered first is what the next step runs. -/
theorem step_encode {i : Instr} {s t : State} (hwf : i.WellFormed) (hen : enabled i s = true) (h : exec i s = .next t)
    (os : List Offer) : step { s with offers := encode s.issuer i :: os } = .next { t with offers := os } := by
  have hready : ready (encode s.issuer i) { s with offers := encode s.issuer i :: os } = true :=
    ready_encode (s := { s with offers := encode s.issuer i :: os }) hwf ((enabled_withOffers i s _).trans hen)
  rw [step_head rfl hready, runOffer, decode_encode s.issuer hwf]
  exact exec_withOffers (s := s) os h

/-- A run whose first step is known. -/
theorem run_succ (M : Host.Core) {s t : M.State} (n : Nat) (h : M.step s = .next t) : M.run (n + 1) s = M.run n t := by
  simp only [Host.Core.run, h]

/-- The offers of a schedule are run in its order, none is left, and the machine is where the schedule leads. -/
theorem run_scheduleOffers {is : List Instr} {s : State} (h : isSchedule is s) :
    ∃ t, execAll is s = .next t ∧ t.offers = s.offers ∧
      core.run is.length { s with offers := scheduleOffers is s } = .next { t with offers := [] } := by
  induction is generalizing s with
  | nil => exact ⟨s, rfl, rfl, rfl⟩
  | cons i is ih =>
    obtain ⟨hwf, hen, u, hu, hrest⟩ := h
    obtain ⟨t, ht, hoffers, hrun⟩ := ih hrest
    refine ⟨t, ?_, hoffers.trans (exec_offers hu), ?_⟩
    · simpa [execAll, hu] using ht
    · rw [scheduleOffers, hu, List.length_cons]
      exact (run_succ core is.length (step_encode hwf hen hu _)).trans hrun

end Sys2Proof.Machine

/-- Settles O12, by induction on the schedule; no operation looks at the offers behind its own. -/
theorem everyScheduleCanBeOffered : Obligations.EveryScheduleCanBeOffered := by
  intro is s hnone hschedule
  obtain ⟨t, hall, hoffers, hrun⟩ := run_scheduleOffers hschedule
  have ht : { t with offers := [] } = t := by rw [← hoffers.trans hnone]
  exact ⟨t, hall, hrun.trans (congrArg Host.Outcome.next ht)⟩

end

section
/-! PROOFS. The CSR window and the step (20_memory.md): the address decode and its refusals, the port writes, and the
offer a step takes. -/

open Sys2Proof Sys2Proof.Machine

namespace Sys2Proof

/-! ### The address decode -/

/-- The ten registers of the window, in the order of R38. -/
def CsrReg.window : List CsrReg :=
  [.irqBasic, .pending1, .pending2, .fiqControl, .enable1, .enable2, .enableBasic, .disable1, .disable2, .disableBasic]

/-- The register of each index, and its offset (R38). -/
theorem CsrReg.ofIndex_of_lt {k : Nat} (hk : k < 10) :
    ∃ r, window[k]? = some r ∧ ofIndex k = some r ∧ r.offset.toNat = 4 * k := by
  interval_cases k <;> exact ⟨_, rfl, rfl, rfl⟩

/-- The width of an access is looked at first (R70, R71). -/
theorem decodeCsr_subWord (dir : Dir) (addr : BusAddr) {n : Nat} (data : Word) (hn : n ≠ 4) :
    decodeCsr dir addr n data = .refuse (.subWord addr.address n) :=
  if_pos hn

/-- A whole-word access past the last register is refused before its alignment is looked at (R70). -/
theorem decodeCsr_unmapped (dir : Dir) {addr : BusAddr} (data : Word) (hoff : 0x28 ≤ addr.offset.toNat) :
    decodeCsr dir addr 4 data = .refuse (.unmapped addr.address) := by
  rw [decodeCsr, if_neg (not_not.2 rfl), if_pos hoff]

/-- A whole-word access inside the window, at no multiple of 4 (R70). -/
theorem decodeCsr_misaligned (dir : Dir) {addr : BusAddr} (data : Word) (hoff : addr.offset.toNat < 0x28)
    (halign : addr.offset.toNat % 4 ≠ 0) : decodeCsr dir addr 4 data = .refuse (.misaligned addr.address) := by
  rw [decodeCsr, if_neg (not_not.2 rfl), if_neg (Nat.not_le.2 hoff), if_pos halign]

/-- A whole-word access of a register (R70). -/
theorem decodeCsr_register (dir : Dir) {addr : BusAddr} (data : Word) {r : CsrReg} (hoff : addr.offset.toNat < 0x28)
    (halign : addr.offset.toNat % 4 = 0) (hr : CsrReg.ofIndex (addr.offset.toNat / 4) = some r) :
    decodeCsr dir addr 4 data = .instr (csrInstr dir r data) := by
  rw [decodeCsr, if_neg (not_not.2 rfl), if_neg (Nat.not_le.2 hoff), if_neg (not_not.2 halign), hr]

end Sys2Proof

namespace Sys2Proof.Machine

/-- What a refused transaction does, of an issuer that may issue (R70, R96). -/
theorem runOffer_refused {s : State} {o : Offer} {r : RefuseReason} (hd : decode o = .refuse r) (h : s.mayIssue) :
    runOffer o s = .next (s.refuse r (.transaction o)) := by
  rw [runOffer, hd]
  exact refuseOffer_of_mayIssue r o h

end Sys2Proof.Machine

/-- Settles O8: the decode clause by clause, and the run of a transaction that decodes to a refusal. -/
theorem csrAddressesDecodeInTheStatedOrder : Obligations.CsrAddressesDecodeInTheStatedOrder := by
  intro who dir addr n v off answer
  refine ⟨fun hn => decodeCsr_subWord dir (.abs addr) v hn, ?unmapped, ?misaligned, ?register,
    fun r s hrefused hmay => runOffer_refused hrefused hmay⟩
  case unmapped =>
    rintro rfl hoff
    exact decodeCsr_unmapped dir (addr := .abs addr) v hoff
  case misaligned =>
    rintro rfl hoff halign
    exact decodeCsr_misaligned dir (addr := .abs addr) v hoff halign
  case register =>
    rintro rfl hoff halign
    obtain ⟨r, hwindow, hindex, hoffset⟩ := CsrReg.ofIndex_of_lt (k := off / 4) (by omega)
    exact ⟨r, hwindow, by omega, decodeCsr_register dir (addr := .abs addr) v hoff halign hindex⟩

namespace Sys2Proof.Machine

/-! ### Port writes -/

/-- A CSR write that may be issued is the write of its register (R120 to R129). -/
theorem exec_csrWrite {s : State} (r : CsrReg) (v : Word) (h : s.mayIssue) :
    exec (csrInstr .write r v) s = .next (s.csrWrite r v) := by
  have taken (op : Operation) : (s.csrTurn op fun s => .next (s.csrWrite r v)) = .next (s.csrWrite r v) :=
    State.csrTurn_taken _ h.findsCorruptPhase (s.issuerGuard_iff.2 h)
  cases r <;> exact taken _

/-- A CSR write leaves its issuer's turn as it was (R131). -/
theorem State.mayIssue.csrWrite {s : State} (h : s.mayIssue) (r : CsrReg) (v : Word) : (s.csrWrite r v).mayIssue := by
  simpa [State.mayIssue] using h

/-- Two CSR writes in a row are their two effects in a row. -/
theorem execAll_csrWrite_pair {s : State} (r r' : CsrReg) (v v' : Word) (h : s.mayIssue) :
    execAll [csrInstr .write r v, csrInstr .write r' v'] s = .next ((s.csrWrite r v).csrWrite r' v') := by
  simp [execAll, exec_csrWrite, h, h.csrWrite]

/-- The six ports: the enable and the disable port of each bank (R144). -/
def portRegisters : List CsrReg := [.enable1, .enable2, .enableBasic, .disable1, .disable2, .disableBasic]

/-- Two writes of one port set, or clear, the bits that either sets or clears alone (R75, R76). -/
theorem State.csrWrite_csrWrite_port (s : State) {r : CsrReg} (hr : r ∈ portRegisters) (v v' : Word) :
    (s.csrWrite r v).csrWrite r v' = s.csrWrite r (v ||| v') := by
  have hset (w : Word) : w ||| v ||| v' = w ||| (v ||| v') := BitVec.or_assoc w v v'
  have hclear (w : Word) : w &&& ~~~v &&& ~~~v' = w &&& ~~~(v ||| v') := by rw [BitVec.not_or, BitVec.and_assoc]
  simp only [portRegisters, List.mem_cons, List.not_mem_nil, or_false] at hr
  rcases hr with rfl | rfl | rfl | rfl | rfl | rfl <;> simp only [State.csrWrite, hset, hclear]

/-- Setting bits and clearing others of one word, in either order (R76). -/
theorem or_and_not_of_disjoint {v v' : Word} (w : Word) (h : v &&& v' = 0#32) :
    (w ||| v) &&& ~~~v' = w &&& ~~~v' ||| v := by
  have hkept : ~~~v' &&& v = v := by
    calc ~~~v' &&& v = v' &&& v ||| ~~~v' &&& v := by rw [BitVec.and_comm v' v, h, BitVec.zero_or]
      _ = v := by rw [← BitVec.and_or_distrib_right, BitVec.or_not_self, BitVec.allOnes_and]
  rw [BitVec.and_comm, BitVec.and_or_distrib_left, hkept, BitVec.and_comm]

/-- Writes of the two ports of a bank, at different bits, compose in either order (R76). -/
theorem State.csrWrite_enable_disable_comm (s : State) (b : Bank) {v v' : Word} (h : v &&& v' = 0#32) :
    (s.csrWrite (enablePort b) v).csrWrite (disablePort b) v' =
      (s.csrWrite (disablePort b) v').csrWrite (enablePort b) v := by
  cases b <;> simp only [enablePort, disablePort, State.csrWrite, or_and_not_of_disjoint _ h]

end Sys2Proof.Machine

/-- Settles O23: two writes of a port are the write of the union of their bits, which is one word twice and the same in
either order. -/
theorem portWritesAreIdempotentAndCommute : Obligations.PortWritesAreIdempotentAndCommute := by
  intro s v v' hmay port hport
  obtain ⟨r, hr, rfl⟩ : ∃ r ∈ portRegisters, csrInstr .write r = port := List.mem_map.1 hport
  constructor
  · rw [execAll_csrWrite_pair r r v v hmay, State.csrWrite_csrWrite_port s hr, BitVec.or_self, exec_csrWrite r v hmay]
  · rw [execAll_csrWrite_pair r r v v' hmay, execAll_csrWrite_pair r r v' v hmay, State.csrWrite_csrWrite_port s hr,
      State.csrWrite_csrWrite_port s hr, BitVec.or_comm]

/-- Settles O24: bank by bank, the bits set are none of those cleared. -/
theorem disjointSetAndClearCommute : Obligations.DisjointSetAndClearCommute := by
  intro s v v' hmay hdisjoint
  have hbank (b : Bank) :
      execAll [csrInstr .write (enablePort b) v, csrInstr .write (disablePort b) v'] s =
        execAll [csrInstr .write (disablePort b) v', csrInstr .write (enablePort b) v] s := by
    rw [execAll_csrWrite_pair _ _ _ _ hmay, execAll_csrWrite_pair _ _ _ _ hmay,
      State.csrWrite_enable_disable_comm s b hdisjoint]
  exact ⟨hbank .b0, hbank .b1, hbank .b2⟩

namespace Sys2Proof.Machine

/-! ### The offer a step takes -/

/-- A ready offer whose agent is not held is picked. -/
theorem pick_cons_ready {s : State} {held : List (Option Agent)} {o : Offer} (os : List Offer)
    (hheld : offerAgent o ∉ held) (hr : ready o s = true) : pick s held (o :: os) = some (o, os) := by
  simp [pick, hheld, hr]

/-- With no agent held an offer waits where it is not ready or stands behind one of its agent. -/
theorem allWait_nil_iff {s : State} {os : List Offer} :
    AllWait s [] os ↔
      ∀ pre q post, os = pre ++ q :: post → ready q s = false ∨ ∃ p ∈ pre, offerAgent p = offerAgent q := by
  simp [AllWait]

/-- The offer taken: ready, the first of its agent, and behind offers that all wait (R78; log 8). -/
theorem nextOffer_of_allWait {s : State} {before after : List Offer} {o : Offer}
    (hoffers : s.offers = before ++ o :: after) (hwait : AllWait s [] before) (hr : ready o s = true)
    (hfirst : ∀ q ∈ before, offerAgent q ≠ offerAgent o) : nextOffer s = some (o, before ++ after) := by
  have hheld : offerAgent o ∉ (before.map offerAgent).reverse ++ [] := by simpa using hfirst
  rw [nextOffer, hoffers, pick_append _ hwait, pick_cons_ready after hheld hr]
  rfl

/-- A step runs the offer taken, on the state with that offer off the list. -/
theorem step_of_nextOffer {s : State} {o : Offer} {rest : List Offer} (h : nextOffer s = some (o, rest)) :
    step s = runOffer o { s with offers := rest } := by
  simp [step, h]

end Sys2Proof.Machine

/-- Settles O11: the offers passed over hold their agents, so what is taken is the first of its agent; and nothing is
taken where all wait. -/
theorem stepRunsTheDecodedOperation : Obligations.StepRunsTheDecodedOperation := by
  refine ⟨fun s before o after i hoffers hd hr hfirst hwait => ?taken, fun s o rest hnext => ?only,
    fun s => pick_eq_none.trans allWait_nil_iff⟩
  case taken =>
    rw [step_of_nextOffer (nextOffer_of_allWait hoffers (allWait_nil_iff.2 hwait) hr hfirst), runOffer, hd]
  case only =>
    obtain ⟨hr, -, before, after, hoffers, hrest, hfirst⟩ := pick_spec hnext
    exact ⟨before, after, hoffers, hrest, hr, hfirst⟩

end

section
/-! PROOFS. The encoding (30_encoding.md): the fields of a command word, the words of the rows of R94, the reserved
words, and the commands THREAD offers. -/

open Sys2Proof Sys2Proof.Machine

/-- Settles O5: `decode_encode`, for every issuer. -/
theorem decodingAnEncodedOperationGivesItBack : Obligations.DecodingAnEncodedOperationGivesItBack :=
  fun who _ hwf => decode_encode who hwf

namespace Sys2Proof

/-! ### The fields of a command word (R93) -/

/-- The field OP, C[31:28] (R93). -/
def cmdOp (c : Word) : BitVec 4 := c.extractLsb' 28 4

/-- The field RSV, C[27:9] (R93). -/
def cmdRsv (c : Word) : BitVec 19 := c.extractLsb' 9 19

@[simp] theorem cmdOp_cmdWord (op : BitVec 4) (v : Bool) (irq : BitVec 8) : cmdOp (cmdWord op v irq) = op := by
  rw [cmdOp, cmdWord, BitVec.append_assoc, BitVec.append_assoc]
  exact BitVec.extractLsb'_append_eq_left

@[simp] theorem cmdRsv_cmdWord (op : BitVec 4) (v : Bool) (irq : BitVec 8) : cmdRsv (cmdWord op v irq) = 0#19 := by
  have hfield : (op ++ 0#19 ++ BitVec.ofBool v ++ irq).extractLsb' 9 19 = 0#19 := by
    rw [BitVec.extractLsb'_append_eq_of_le (by decide), BitVec.extractLsb'_append_eq_of_le (by decide)]
    exact BitVec.extractLsb'_append_eq_right
  exact hfield

/-- A word is its four fields. -/
theorem cmdFields_append (c : Word) : cmdOp c ++ cmdRsv c ++ BitVec.ofBool (cmdValid c) ++ cmdIrq c = c := by
  have hvalid : BitVec.ofBool (cmdValid c) = c.extractLsb' 8 1 := by
    ext i hi
    simp [cmdValid, show i = 0 by omega]
  rw [cmdOp, cmdRsv, cmdIrq, hvalid, BitVec.extractLsb'_append_extractLsb'_eq_extractLsb' (show 28 = 9 + 19 from rfl),
    BitVec.extractLsb'_append_extractLsb'_eq_extractLsb' (show 9 = 8 + 1 from rfl),
    BitVec.extractLsb'_append_extractLsb'_eq_extractLsb' (show 8 = 0 + 8 from rfl)]
  exact BitVec.extractLsb'_eq_self

/-- A word whose reserved bits are 0 is the command word of its other fields. -/
theorem eq_cmdWord {c : Word} (hrsv : cmdRsv c = 0#19) : c = cmdWord (cmdOp c) (cmdValid c) (cmdIrq c) := by
  rw [cmdWord, ← hrsv, cmdFields_append]

/-! ### The rows of R94 -/

/-- A field that the mask leaves whole is that of the row a word matches. -/
theorem extractLsb'_of_match {c mask row : Word} {start len : Nat} (hmatch : c &&& mask = row)
    (hwhole : mask.extractLsb' start len = BitVec.allOnes len) :
    c.extractLsb' start len = row.extractLsb' start len := by
  rw [← hmatch, BitVec.extractLsb'_and, hwhole, BitVec.and_allOnes]

/-- A word that matches a row under REGISTER's mask has its OP, and any V and IRQ (R94). -/
theorem eq_cmdWord_of_registerMask {c : Word} (op : BitVec 4) (hmatch : c &&& 0xFFFFFE00#32 = cmdWord op false 0#8) :
    c = cmdWord op (cmdValid c) (cmdIrq c) := by
  have hop : cmdOp c = op := (extractLsb'_of_match hmatch (by decide)).trans (cmdOp_cmdWord op false 0#8)
  have hrsv : cmdRsv c = 0#19 := (extractLsb'_of_match hmatch (by decide)).trans (cmdRsv_cmdWord op false 0#8)
  rw [← hop]
  exact eq_cmdWord hrsv

/-- A word that matches a row under the mask of ENABLE and DISABLE has its OP, V = 0 and any IRQ (R94). -/
theorem eq_cmdWord_of_enableMask {c : Word} (op : BitVec 4) (hmatch : c &&& 0xFFFFFF00#32 = cmdWord op false 0#8) :
    c = cmdWord op false (cmdIrq c) := by
  have hregister : c &&& 0xFFFFFE00#32 = cmdWord op false 0#8 := by
    rw [show 0xFFFFFE00#32 = 0xFFFFFF00#32 &&& 0xFFFFFE00#32 by decide, ← BitVec.and_assoc, hmatch,
      cmdWord_and_registerMask]
  have hvalid : cmdValid c = false := by
    have hbit := congrArg cmdValid hmatch
    rw [cmdValid_cmdWord] at hbit
    simpa [cmdValid] using hbit
  rw [← hvalid]
  exact eq_cmdWord_of_registerMask op hregister

/-- The words of the rows of R94. -/
inductive CommandWord : Word → Prop
  | register (v : Bool) (irq : BitVec 8) : CommandWord (registerWord v irq)
  | enable (irq : BitVec 8) : CommandWord (enableWord irq)
  | disable (irq : BitVec 8) : CommandWord (disableWord irq)
  | block : CommandWord blockWord
  | unblock : CommandWord unblockWord

/-- A word of a row decodes to a well-formed command, whose encoding is that word. -/
theorem CommandWord.decodes {c : Word} (h : CommandWord c) (d0 d1 : Word) :
    ∃ i, decodeCmd c d0 d1 = .instr i ∧ i.WellFormed ∧ ∀ who, ∃ e0 e1, encode who i = .cmd who c e0 e1 := by
  cases h with
  | register v irq => exact ⟨_, decodeCmd_registerWord v irq d0 d1, by cases v <;> rfl, fun _ => ⟨_, _, rfl⟩⟩
  | enable irq => exact ⟨_, decodeCmd_enableWord irq d0 d1, rfl, fun _ => ⟨_, _, rfl⟩⟩
  | disable irq => exact ⟨_, decodeCmd_disableWord irq d0 d1, rfl, fun _ => ⟨_, _, rfl⟩⟩
  | block => exact ⟨.block, rfl, rfl, fun _ => ⟨_, _, rfl⟩⟩
  | unblock => exact ⟨.unblock, rfl, rfl, fun _ => ⟨_, _, rfl⟩⟩

/-- A word of no row matches none under its mask (R96). -/
theorem decodeCmd_of_not_commandWord {c : Word} (h : ¬ CommandWord c) (d0 d1 : Word) :
    decodeCmd c d0 d1 = .refuse (.reservedCommand c) := by
  have hregister : c &&& 0xFFFFFE00#32 ≠ 0x10000000#32 := fun hm =>
    h (eq_cmdWord_of_registerMask 0b0001#4 hm ▸ .register _ _)
  have henable : c &&& 0xFFFFFF00#32 ≠ 0x20000000#32 := fun hm =>
    h (eq_cmdWord_of_enableMask 0b0010#4 hm ▸ .enable _)
  have hdisable : c &&& 0xFFFFFF00#32 ≠ 0x30000000#32 := fun hm =>
    h (eq_cmdWord_of_enableMask 0b0011#4 hm ▸ .disable _)
  have hblock : c &&& 0xFFFFFFFF#32 ≠ 0x40000000#32 := fun hm =>
    h ((BitVec.and_allOnes.symm.trans hm : c = _) ▸ .block)
  have hunblock : c &&& 0xFFFFFFFF#32 ≠ 0x50000000#32 := fun hm =>
    h ((BitVec.and_allOnes.symm.trans hm : c = _) ▸ .unblock)
  rw [decodeCmd, if_neg hregister, if_neg henable, if_neg hdisable, if_neg hblock, if_neg hunblock]

/-! ### The reserved words (R96) -/

/-- The words R96 reserves, by field. -/
def ReservedWord (c : Word) : Prop :=
  (cmdOp c).toNat = 0 ∨ 6 ≤ (cmdOp c).toNat ∨ cmdRsv c ≠ 0#19 ∨
    (cmdValid c = true ∧ (cmdOp c).toNat ≠ 1) ∨ (cmdIrq c ≠ 0#8 ∧ ((cmdOp c).toNat = 4 ∨ (cmdOp c).toNat = 5))

/-- No word of a row is reserved. -/
theorem CommandWord.not_reservedWord {c : Word} (h : CommandWord c) : ¬ ReservedWord c := by
  cases h with
  | register v irq => simp [ReservedWord, registerWord]
  | enable irq => simp [ReservedWord, enableWord]
  | disable irq => simp [ReservedWord, disableWord]
  | block => simp [ReservedWord, blockWord]
  | unblock => simp [ReservedWord, unblockWord]

/-- A word that is not reserved is the word of the row its OP names. -/
theorem commandWord_of_not_reservedWord {c : Word} (h : ¬ ReservedWord c) : CommandWord c := by
  simp only [ReservedWord, not_or, not_not] at h
  obtain ⟨hop0, hop6, hrsv, hvalid, hirq⟩ := h
  have hrow : cmdOp c = 1#4 ∨ cmdOp c = 2#4 ∨ cmdOp c = 3#4 ∨ cmdOp c = 4#4 ∨ cmdOp c = 5#4 := by bv_omega
  have hv (hop : (cmdOp c).toNat ≠ 1) : cmdValid c = false := Bool.eq_false_iff.2 fun h => hvalid ⟨h, hop⟩
  have hi (hop : (cmdOp c).toNat = 4 ∨ (cmdOp c).toNat = 5) : cmdIrq c = 0#8 := by_contra fun h => hirq ⟨h, hop⟩
  rw [eq_cmdWord hrsv]
  rcases hrow with hop | hop | hop | hop | hop
  · rw [hop]
    exact .register _ _
  · rw [hv (by simp [hop]), hop]
    exact .enable _
  · rw [hv (by simp [hop]), hop]
    exact .disable _
  · rw [hv (by simp [hop]), hi (by simp [hop]), hop]
    exact .block
  · rw [hv (by simp [hop]), hi (by simp [hop]), hop]
    exact .unblock

/-- The reserved words are those of no row. -/
theorem reservedWord_iff (c : Word) : ReservedWord c ↔ ¬ CommandWord c :=
  ⟨fun hr hc => hc.not_reservedWord hr, fun hc => by_contra fun hr => hc (commandWord_of_not_reservedWord hr)⟩

/-- R96's refusal is that of the reserved words. -/
theorem decodeCmd_eq_refuse_iff (c d0 d1 : Word) :
    decodeCmd c d0 d1 = .refuse (.reservedCommand c) ↔ ReservedWord c := by
  rw [reservedWord_iff]
  refine ⟨fun hrefused hc => ?_, fun hc => decodeCmd_of_not_commandWord hc d0 d1⟩
  obtain ⟨i, hi, -⟩ := hc.decodes d0 d1
  cases hi.symm.trans hrefused

end Sys2Proof

/-- Settles O6: a word that decodes is the word of a row, and the encoding of its command decodes to that command. -/
theorem commandWordsDecodeWithoutLoss : Obligations.CommandWordsDecodeWithoutLoss := by
  intro who c d0 d1 i hdecode
  by_cases hc : CommandWord c
  · obtain ⟨j, hj, hwf, hencode⟩ := hc.decodes d0 d1
    obtain rfl : j = i := Decoded.instr.inj (hj.symm.trans hdecode)
    obtain ⟨e0, e1, he⟩ := hencode who
    exact ⟨hwf, e0, e1, he, he ▸ decode_encode who hwf⟩
  · cases (decodeCmd_of_not_commandWord hc d0 d1).symm.trans hdecode

/-- Settles O7: a word is refused exactly where it is the word of no row, which the fields say. -/
theorem reservedCommandWordsAreRefused : Obligations.ReservedCommandWordsAreRefused := by
  intro c who d0 d1 op reserved
  have hrefused : decodeCmd c d0 d1 = .refuse (.reservedCommand c) ↔ reserved := decodeCmd_eq_refuse_iff c d0 d1
  refine ⟨hrefused, fun hnot => ?_, fun hr s hmay => runOffer_refused (hrefused.2 hr) hmay⟩
  obtain ⟨i, hi, -⟩ := (commandWord_of_not_reservedWord (c := c) hnot).decodes d0 d1
  exact ⟨i, hi⟩

/-- Settles O10: each word is the encoding of its operation, is reserved, or is a row of the table. -/
theorem sampleWordsDecode : Obligations.SampleWordsDecode :=
  ⟨decodeCmd_registerWord true 35#8 0x8000#32 0xC0#32, decodeCmd_registerWord false 35#8 0x1234#32 0xC0#32,
    decodeCmd_enableWord 255#8 0#32 0#32, decodeCmd_disableWord 0#8 0#32 0#32,
    (decodeCmd_eq_refuse_iff _ _ _).2 (.inr (.inr (.inr (.inl ⟨rfl, by decide⟩)))),
    decode_encode .thread (i := .csrwEnablebasic 0x80#32) rfl, decode_encode .thread (i := .csrrDisablebasic) rfl,
    decode_encode .thread (i := .env 0x200#32 0#32 0x8#32) rfl, decode_encode .thread (i := .sSelect) rfl, rfl⟩

namespace Sys2Proof.Machine

/-! ### Commands of THREAD -/

/-- A command of THREAD is its effect (R31, R146). -/
theorem exec_command {i : Instr} {s : State} {word : Word} {k : State → Result} (h : s.threadMayCommand)
    (hexec : exec i s = s.cmdTurn i word k) : exec i s = k s := by
  obtain ⟨ha, hp, ht⟩ := h
  exact hexec.trans (State.cmdTurn_thread i word k ha hp ht)

/-- BLOCK of THREAD (R200). -/
theorem exec_block {s : State} (h : s.threadMayCommand) : exec .block s = .next { s with gmask := true } :=
  exec_command (k := fun s => .next { s with gmask := true }) h rfl

/-- UNBLOCK of THREAD (R201). -/
theorem exec_unblock {s : State} (h : s.threadMayCommand) : exec .unblock s = .next { s with gmask := false } :=
  exec_command (k := fun s => .next { s with gmask := false }) h rfl

/-- ENABLE of THREAD, for a line of a bank: the hardware write, and the commit left pending (R141). -/
theorem exec_enable {s : State} {irq : BitVec 8} {b : Bank} (h : s.threadMayCommand) (hb : bankOfIrq irq = some b) :
    exec (.enable irq) s =
      .next { s.csrWrite (enablePort b) (bitmask irq) with tpend := .set b (bitmask irq) } := by
  rw [exec_command (i := .enable irq) h (by unfold exec; rfl), hb]

/-- S_COMMIT in Idle, with a commit pending (R143). -/
theorem exec_sCommit {s : State} (hp : s.phase = .idle) (ht : s.tpend ≠ .none) : exec .sCommit s = .next s.commit :=
  State.turn_taken (fun s => .next s.commit) (State.findsCorruptPhase_of_legal (by rw [hp]; rfl))
    (s.commitGuard_iff.2 ⟨hp, ht⟩)

/-- The mask of a line of bank 1 (R12). -/
theorem bitmask_bank1 {irq : BitVec 8} (hlow : 32 ≤ irq.toNat) (hhigh : irq.toNat ≤ 63) :
    bitmask irq = 1#32 <<< (irq.toNat - 32) := by
  rw [bitmask, bitAt, show irq.toNat % 32 = irq.toNat - 32 by omega]

/-- A command of THREAD at the head of the list is what the next step runs (R31). -/
theorem step_command {i : Instr} {s t : State} {os : List Offer} (hi : isCommand i) (hwf : i.WellFormed)
    (h : s.threadMayCommand) (hoffers : s.offers = encode .thread i :: os) (hexec : exec i s = .next t) :
    step s = .next { t with offers := os } := by
  obtain ⟨ha, hp, ht⟩ := h
  have hissuer : s.issuer = .thread := by simp [State.issuer, ha]
  have hen : enabled i s = true := by
    rw [enabled_transaction s (.inr hi), s.issuerGuard_iff.2 (.inr ⟨hp, ht⟩), Bool.or_true]
  have hstep := step_encode hwf hen hexec os
  rwa [hissuer, ← hoffers] at hstep

/-- A command waits while a commit is pending (R31, R37). -/
theorem not_ready_of_pending {i : Instr} {s : State} (who : Issuer) (hi : isCommand i) (hwf : i.WellFormed)
    (ha : s.awaiting = false) (hp : s.phase = .idle) (ht : s.tpend ≠ .none) : ready (encode who i) s = false := by
  have hcorrupt : s.findsCorruptPhase = false := State.findsCorruptPhase_of_legal (by rw [hp]; rfl)
  have hguard : s.issuerGuard = false := by simp [State.issuerGuard, ha, ht]
  simp [ready, decode_encode who hwf, enabled_transaction s (.inr hi), hcorrupt, hguard]

/-- With no offer ready none is taken. -/
theorem nextOffer_of_not_ready {s : State} (h : ∀ o ∈ s.offers, ready o s = false) : nextOffer s = none :=
  pick_eq_none.2 fun _ q _ he => .inl (h q (he ▸ by simp))

/-- With no offer ready the pending S_COMMIT is the machine's own step (log 9). -/
theorem step_sCommit {s : State} (hnone : nextOffer s = none) (ha : s.awaiting = false) (hp : s.phase = .idle)
    (ht : s.tpend ≠ .none) : step s = .next s.commit := by
  have hinternal : internalStep s = some .sCommit := by simp [internalStep, ha, hp, ht]
  simp [step, hnone, hinternal, exec_sCommit hp ht]

/-! ### SAFE_ENABLE of a line of bank 1 (R102) -/

/-- After BLOCK: ENABLE and UNBLOCK are still offered. -/
def State.safeEnableBlocked (irq : BitVec 8) (s : State) : State :=
  { s with gmask := true, offers := [.enable irq, .unblock].map (encode .thread) }

/-- After ENABLE: the hardware bit is written, the commit is pending, and UNBLOCK is still offered. -/
def State.safeEnablePending (irq : BitVec 8) (s : State) : State :=
  { s.csrWrite .enable2 (bitmask irq) with
    gmask := true, tpend := .set .b1 (bitmask irq), offers := [encode .thread .unblock] }

/-- UNBLOCK waits for the pending commit. -/
theorem nextOffer_safeEnablePending {s : State} (irq : BitVec 8) (h : s.threadMayCommand) :
    nextOffer (s.safeEnablePending irq) = none := by
  obtain ⟨ha, hp, -⟩ := h
  refine nextOffer_of_not_ready fun o ho => ?_
  obtain rfl := List.mem_singleton.1 ho
  exact not_ready_of_pending (i := .unblock) .thread rfl rfl ha hp nofun

/-- After S_COMMIT and UNBLOCK the line's two bits are set, and nothing else is left changed. -/
theorem safeEnable_done {s : State} (irq : BitVec 8) (ht : s.tpend = .none) :
    { (s.safeEnablePending irq).commit with gmask := false, offers := [] } =
      { s with
        offers := [], gmask := false, hwen1 := s.hwen1 ||| bitmask irq, shadow1 := s.shadow1 ||| bitmask irq } := by
  simp [State.safeEnablePending, State.commit, State.csrWrite, State.setShadow, State.shadow, ht]

end Sys2Proof.Machine

/-- Settles O37: BLOCK, ENABLE, the S_COMMIT for which UNBLOCK waits, and UNBLOCK, a step each. -/
theorem safeEnableCompletesInFourSteps : Obligations.SafeEnableCompletesInFourSteps := by
  intro s irq hmay hlow hhigh hoffers
  have ⟨ha, hp, ht⟩ := hmay
  have hbank : bankOfIrq irq = some .b1 := (bankOfIrq_eq_some irq .b1).2 (.inr (.inl ⟨rfl, hlow, hhigh⟩))
  rw [← bitmask_bank1 hlow hhigh]
  have hblock : step s = .next (s.safeEnableBlocked irq) :=
    step_command (i := .block) rfl rfl hmay hoffers (exec_block hmay)
  have henable : step (s.safeEnableBlocked irq) = .next (s.safeEnablePending irq) :=
    step_command (i := .enable irq) (s := s.safeEnableBlocked irq) rfl rfl hmay rfl (exec_enable hmay hbank)
  have hcommit : step (s.safeEnablePending irq) = .next (s.safeEnablePending irq).commit :=
    step_sCommit (nextOffer_safeEnablePending irq hmay) ha hp nofun
  have hcommitted : (s.safeEnablePending irq).commit.threadMayCommand := ⟨ha, hp, rfl⟩
  have hunblock := step_command (i := .unblock) (os := []) rfl rfl hcommitted rfl (exec_unblock hcommitted)
  calc core.run 4 s = core.run 3 (s.safeEnableBlocked irq) := run_succ core 3 hblock
    _ = core.run 2 (s.safeEnablePending irq) := run_succ core 2 henable
    _ = core.run 1 (s.safeEnablePending irq).commit := run_succ core 1 hcommit
    _ = .next { (s.safeEnablePending irq).commit with gmask := false, offers := [] } := run_succ core 0 hunblock
    _ = _ := congrArg Host.Outcome.next (safeEnable_done irq ht)

end

section
/-! PROOFS. The CSR interface (40_csr_interface.md): what a read returns, what a write sets, clears or refuses, and what
no CSR operation writes. -/

open Sys2Proof Sys2Proof.Machine

namespace Sys2Proof.Machine

/-! ### Reads -/

/-- A CSR read that may be issued is the read of its register (R110 to R119). -/
theorem exec_csrRead {s : State} (r : CsrReg) (v : Word) (h : s.mayIssue) :
    exec (csrInstr .read r v) s = .next (s.csrRead r) := by
  have taken (op : Operation) : (s.csrTurn op fun s => .next (s.csrRead r)) = .next (s.csrRead r) :=
    State.csrTurn_taken _ h.findsCorruptPhase (s.issuerGuard_iff.2 h)
  cases r <;> exact taken _

/-- The state after a read that returned the next free value (R14; logs 6 and 7). -/
def State.afterDraw (s : State) (r : CsrReg) : State :=
  { s with draws := s.draws + 1, readLog := s.readLog ++ [⟨s.issuer, r, Config.draw s.draws⟩] }

/-- The read of a register whose value is Draw() (R42 to R48). -/
theorem State.csrRead_of_draw {s : State} {r : CsrReg} (h : s.csrValue r = s.draw) : s.csrRead r = s.afterDraw r := by
  rw [State.csrRead, h]
  rfl

/-- A read of a register whose value is Draw(), where it may be issued (R113 to R119). -/
theorem exec_csrRead_of_draw {s : State} (r : CsrReg) (v : Word) (hmay : s.mayIssue) (hdraw : s.csrValue r = s.draw) :
    exec (csrInstr .read r v) s = .next (s.afterDraw r) := by
  rw [exec_csrRead r v hmay, State.csrRead_of_draw hdraw]

/-! ### Writes -/

/-- The registers of the inputs, which are read-only (R39 to R41). -/
def inputRegisters : List CsrReg := [.irqBasic, .pending1, .pending2]

/-- A write of an input's register is refused (R120 to R122). -/
theorem State.csrWrite_inputRegister (s : State) {r : CsrReg} (hr : r ∈ inputRegisters) (v : Word) :
    s.csrWrite r v = s.refuse (.readOnlyWrite r.offset v) (.instr (csrInstr .write r v)) := by
  simp only [inputRegisters, List.mem_cons, List.not_mem_nil, or_false] at hr
  rcases hr with rfl | rfl | rfl <;> rfl

/-- A write of FIQControl is refused (R123). -/
@[simp] theorem State.csrWrite_fiqControl (s : State) (v : Word) :
    s.csrWrite .fiqControl v = s.refuse (.fiqControlWrite v) (.instr (.csrwFiqcontrol v)) := rfl

/-- The bits of a word after those of v are set: W1S (R75). -/
theorem getLsbD_setBits (w v : Word) (k : Nat) : (w ||| v).getLsbD k = (v.getLsbD k || w.getLsbD k) := by
  rw [BitVec.getLsbD_or, Bool.or_comm]

/-- The bits of a word after those of v are cleared: W1C (R75). -/
theorem getLsbD_clearBits (w v : Word) (k : Nat) : (w &&& ~~~v).getLsbD k = (w.getLsbD k && !v.getLsbD k) := by
  rw [BitVec.getLsbD_and, BitVec.getLsbD_not]
  by_cases hk : k < 32
  · rw [decide_eq_true hk, Bool.true_and]
  · rw [BitVec.getLsbD_of_ge w k (Nat.le_of_not_lt hk), Bool.false_and, Bool.false_and]

/-! ### What no CSR operation writes -/

/-- `t` with the fields that R131 lets a CSR operation write, and the model's own read log and draw counter, as they are
in `s`. -/
def State.restoreCsrFields (s t : State) : State :=
  { t with
    hwen0 := s.hwen0, hwen1 := s.hwen1, hwenb := s.hwenb, refused := s.refused, readLog := s.readLog, draws := s.draws }

@[simp] theorem State.restoreCsrFields_refuse (s : State) (r : RefuseReason) (op : Operation) :
    s.restoreCsrFields (s.refuse r op) = s := rfl

@[simp] theorem State.restoreCsrFields_csrRead (s : State) (r : CsrReg) : s.restoreCsrFields (s.csrRead r) = s := by
  cases r <;> rfl

@[simp] theorem State.restoreCsrFields_csrWrite (s : State) (r : CsrReg) (v : Word) :
    s.restoreCsrFields (s.csrWrite r v) = s := by
  cases r <;> rfl

/-- No CSR operation is a command (R90). -/
theorem not_isCommand_of_isCsrOperation {i : Instr} (hcsr : isCsrOperation i) : ¬ isCommand i :=
  fun hcmd => nomatch hcsr.symm.trans hcmd

/-- A CSR operation is refused, waits, reads or writes, and none of these writes another field (R131). -/
theorem Effect.restoreCsrFields {s t : State} {i : Instr} (he : Effect s i t) (hcsr : isCsrOperation i) :
    s.restoreCsrFields t = s := by
  cases he with
  | corrupt => exact s.restoreCsrFields_refuse _ _
  | waits => rfl
  | read r => exact s.restoreCsrFields_csrRead r
  | write r v => exact s.restoreCsrFields_csrWrite r v
  | inHandler _ _ hcmd | ignored _ hcmd => exact absurd hcmd (not_isCommand_of_isCsrOperation hcsr)
  | _ => cases hcsr

end Sys2Proof.Machine

/-- Settles O25, from the effects an operation of the CSR format can have. -/
theorem csrOperationsWriteOnlyHwenAndRefused : Obligations.CsrOperationsWriteOnlyHwenAndRefused :=
  fun _ _ _ hcsr hexec => (exec_effect hexec).restoreCsrFields hcsr

/-- Settles O18: the value read is the input, and the read is logged for its issuer. -/
theorem readsOfTheInputsReturnThem : Obligations.ReadsOfTheInputsReturnThem := by
  intro s hmay
  refine ⟨?irqBasic, ?pending1, ?pending2⟩
  case irqBasic => exact (exec_csrRead .irqBasic 0#32 hmay).trans (congrArg _ s.csrRead_irqBasic)
  case pending1 => exact (exec_csrRead .pending1 0#32 hmay).trans (congrArg _ s.csrRead_pending1)
  case pending2 => exact (exec_csrRead .pending2 0#32 hmay).trans (congrArg _ s.csrRead_pending2)

/-- Settles O19: the value of each of the seven registers is Draw(). -/
theorem readsOfPortsReturnADraw : Obligations.ReadsOfPortsReturnADraw := by
  intro s hmay drawn
  have hread (r : CsrReg) (hdraw : s.csrValue r = s.draw) : exec (csrInstr .read r 0#32) s = .next (drawn r) :=
    exec_csrRead_of_draw r 0#32 hmay hdraw
  exact ⟨hread .fiqControl rfl, hread .enable1 rfl, hread .enable2 rfl, hread .enableBasic rfl, hread .disable1 rfl,
    hread .disable2 rfl, hread .disableBasic rfl⟩

/-- Settles O20: the three read-only registers by their offsets, then FIQControl. -/
theorem writesWithoutMeaningOnlyMarkRefused : Obligations.WritesWithoutMeaningOnlyMarkRefused := by
  intro s v hmay marked
  have hreadOnly (r : CsrReg) (hr : r ∈ inputRegisters) :
      exec (csrInstr .write r v) s = .next (marked (.readOnlyWrite r.offset v) (csrInstr .write r v)) :=
    (exec_csrWrite r v hmay).trans (congrArg _ (s.csrWrite_inputRegister hr v))
  exact ⟨hreadOnly .irqBasic (by decide), hreadOnly .pending1 (by decide), hreadOnly .pending2 (by decide),
    (exec_csrWrite .fiqControl v hmay).trans (congrArg _ (s.csrWrite_fiqControl v))⟩

/-- Settles O21: each enable port sets bits of its own HWEN word. -/
theorem enablePortsSetTheWrittenBits : Obligations.EnablePortsSetTheWrittenBits := by
  intro s v hmay
  exact ⟨⟨_, exec_csrWrite .enable1 v hmay, getLsbD_setBits s.hwen0 v, rfl⟩,
    ⟨_, exec_csrWrite .enable2 v hmay, getLsbD_setBits s.hwen1 v, rfl⟩,
    ⟨_, exec_csrWrite .enableBasic v hmay, getLsbD_setBits s.hwenb v, rfl⟩⟩

/-- Settles O22: each disable port clears bits of its own HWEN word. -/
theorem disablePortsClearTheWrittenBits : Obligations.DisablePortsClearTheWrittenBits := by
  intro s v hmay
  exact ⟨⟨_, exec_csrWrite .disable1 v hmay, getLsbD_clearBits s.hwen0 v, rfl⟩,
    ⟨_, exec_csrWrite .disable2 v hmay, getLsbD_clearBits s.hwen1 v, rfl⟩,
    ⟨_, exec_csrWrite .disableBasic v hmay, getLsbD_clearBits s.hwenb v, rfl⟩⟩

end

section
/-! PROOFS. Registration and enable (41_registration_enable.md): REGISTER, the two halves of ENABLE and DISABLE, the
identifiers of no bank, S_COMMIT, the shadow bits, and the commands of the HANDLER. -/

open Sys2Proof Sys2Proof.Machine

namespace Sys2Proof.Machine

/-! ### Commands of the HANDLER (R146) -/

/-- A command of the HANDLER is refused, whatever its effect is (R146). -/
theorem State.cmdTurn_handler {s : State} (i : Instr) (word : Word) (k : State → Result) (ha : s.awaiting = true) :
    s.cmdTurn i word k = .next (s.refuse (.commandInHandler word) (.instr i)) := by
  have hguard : s.issuerGuard = true := s.issuerGuard_iff.2 (.inl ha)
  refine (State.turn_taken _ (State.findsCorruptPhase_of_awaiting ha) hguard).trans ?_
  exact if_pos ha

/-- An operation that encodes as a command is a turn with that command's word (R94). -/
theorem exec_eq_cmdTurn {i : Instr} {who : Issuer} {c e0 e1 : Word} (h : encode who i = .cmd who c e0 e1) :
    ∃ k, ∀ s, exec i s = s.cmdTurn i c k := by
  cases i with
  | register | enable | disable | block | unblock =>
    cases h
    exact ⟨_, fun s => by unfold exec; rfl⟩
  | _ => cases h

/-! ### REGISTER (R140) -/

/-- REGISTER of THREAD, in range: the entry is stored, and the gate left open (R140). -/
theorem exec_register {s : State} {irq : BitVec 8} (v : Bool) (handler context : Word) (h : s.threadMayCommand)
    (hirq : irq.toNat < 72) :
    exec (.register irq v handler context) s =
      .next { s.setVt irq.toNat { hvalid := v, handler := if v then handler else 0#32, context := context } with
        gmask := false } :=
  (exec_command h (by unfold exec; rfl)).trans (if_neg (Nat.not_le.2 hirq))

/-! ### Identifiers of no bank (R147) -/

/-- REGISTER of THREAD, out of range (R140, R147). -/
theorem exec_register_outOfRange {s : State} {irq : BitVec 8} (v : Bool) (handler context : Word)
    (h : s.threadMayCommand) (hirq : 72 ≤ irq.toNat) : exec (.register irq v handler context) s = .next s :=
  (exec_command h (by unfold exec; rfl)).trans (if_pos hirq)

/-- ENABLE of THREAD, for an identifier of no bank (R147). -/
theorem exec_enable_outOfRange {s : State} {irq : BitVec 8} (h : s.threadMayCommand) (hirq : 72 ≤ irq.toNat) :
    exec (.enable irq) s = .next s := by
  rw [exec_command (i := .enable irq) h (by unfold exec; rfl), (bankOfIrq_eq_none irq).2 hirq]

/-- DISABLE of THREAD, for an identifier of no bank (R147). -/
theorem exec_disable_outOfRange {s : State} {irq : BitVec 8} (h : s.threadMayCommand) (hirq : 72 ≤ irq.toNat) :
    exec (.disable irq) s = .next s := by
  rw [exec_command (i := .disable irq) h (by unfold exec; rfl), (bankOfIrq_eq_none irq).2 hirq]

/-! ### The first halves of ENABLE and DISABLE (R141, R142) -/

/-- DISABLE of THREAD, for a line of a bank: the hardware write, and the commit left pending (R142). -/
theorem exec_disable {s : State} {irq : BitVec 8} {b : Bank} (h : s.threadMayCommand) (hb : bankOfIrq irq = some b) :
    exec (.disable irq) s =
      .next { s.csrWrite (disablePort b) (bitmask irq) with tpend := .clr b (bitmask irq) } := by
  rw [exec_command (i := .disable irq) h (by unfold exec; rfl), hb]

/-- The mask of a line, from its place in its bank (R12). -/
theorem bitmask_of_bank {irq : BitVec 8} {b : Bank} (hb : bankOfIrq irq = some b) :
    bitmask irq = 1#32 <<< (irq.toNat - bankBase b) := by
  have hplace : irq.toNat % 32 = irq.toNat - bankBase b := by
    rcases (bankOfIrq_eq_some irq b).1 hb with ⟨rfl, _⟩ | ⟨rfl, _, _⟩ | ⟨rfl, _, _⟩ <;> simp only [bankBase] <;> omega
  rw [bitmask, bitAt, hplace]

theorem bankOfIrq_b0 {irq : BitVec 8} (hhigh : irq.toNat ≤ 31) : bankOfIrq irq = some .b0 :=
  (bankOfIrq_eq_some irq .b0).2 (.inl ⟨rfl, hhigh⟩)

theorem bankOfIrq_b1 {irq : BitVec 8} (hlow : 32 ≤ irq.toNat) (hhigh : irq.toNat ≤ 63) : bankOfIrq irq = some .b1 :=
  (bankOfIrq_eq_some irq .b1).2 (.inr (.inl ⟨rfl, hlow, hhigh⟩))

theorem bankOfIrq_b2 {irq : BitVec 8} (hlow : 64 ≤ irq.toNat) (hhigh : irq.toNat < 72) : bankOfIrq irq = some .b2 :=
  (bankOfIrq_eq_some irq .b2).2 (.inr (.inr ⟨rfl, hlow, hhigh⟩))

/-! ### S_COMMIT (R143) -/

/-- The commit of SET(b, m) sets m in SHADOW[b] and leaves the other masks (R143). -/
theorem State.commit_shadow_set {s : State} {b : Bank} {m : Word} (ht : s.tpend = .set b m) (b' : Bank) :
    s.commit.shadow b' = if b' = b then s.shadow b' ||| m else s.shadow b' := by
  rw [s.commit_shadow, ht]

/-- The commit of CLR(b, m) clears m in SHADOW[b] and leaves the other masks (R143). -/
theorem State.commit_shadow_clr {s : State} {b : Bank} {m : Word} (ht : s.tpend = .clr b m) (b' : Bank) :
    s.commit.shadow b' = if b' = b then s.shadow b' &&& ~~~m else s.shadow b' := by
  rw [s.commit_shadow, ht]

/-- The commit writes TPEND and the shadow masks alone (R143): every other field by its lemma. -/
theorem State.commit_frame (s : State) :
    { s.commit with tpend := s.tpend, shadow0 := s.shadow0, shadow1 := s.shadow1, shadow2 := s.shadow2 } = s := by
  simp

/-! ### ENABLE and DISABLE on the shadow bits (R145) -/

/-- The mask of a line has its one bit (R12). -/
theorem bitmask_getLsbD (irq : BitVec 8) (k : Nat) : (bitmask irq).getLsbD k = decide (k = irq.toNat % 32) := by
  rw [bitmask, bitAt_getLsbD, ← Bool.decide_and, decide_eq_decide]
  omega

/-- The state after ENABLE of a line of bank b and its S_COMMIT. -/
def State.afterEnable (s : State) (irq : BitVec 8) (b : Bank) : State :=
  State.commit { s.csrWrite (enablePort b) (bitmask irq) with tpend := .set b (bitmask irq) }

/-- The state after DISABLE of a line of bank b and its S_COMMIT. -/
def State.afterDisable (s : State) (irq : BitVec 8) (b : Bank) : State :=
  State.commit { s.csrWrite (disablePort b) (bitmask irq) with tpend := .clr b (bitmask irq) }

/-- A command that leaves its commit pending in Idle, and the S_COMMIT (R143). -/
theorem execAll_commit {i : Instr} {s t : State} (is : List Instr) (hexec : exec i s = .next t) (hp : t.phase = .idle)
    (ht : t.tpend ≠ .none) : execAll (i :: .sCommit :: is) s = execAll is t.commit := by
  simp [execAll, hexec, exec_sCommit hp ht]

theorem execAll_enable_commit {s : State} {irq : BitVec 8} {b : Bank} (is : List Instr) (h : s.threadMayCommand)
    (hb : bankOfIrq irq = some b) : execAll (.enable irq :: .sCommit :: is) s = execAll is (s.afterEnable irq b) := by
  have ⟨_, hp, _⟩ := h
  exact execAll_commit is (exec_enable h hb) ((s.csrWrite_phase _ _).trans hp) nofun

theorem execAll_disable_commit {s : State} {irq : BitVec 8} {b : Bank} (is : List Instr) (h : s.threadMayCommand)
    (hb : bankOfIrq irq = some b) : execAll (.disable irq :: .sCommit :: is) s = execAll is (s.afterDisable irq b) := by
  have ⟨_, hp, _⟩ := h
  exact execAll_commit is (exec_disable h hb) ((s.csrWrite_phase _ _).trans hp) nofun

/-- After ENABLE and its S_COMMIT THREAD may command again. -/
theorem State.threadMayCommand.afterEnable {s : State} (h : s.threadMayCommand) (irq : BitVec 8) (b : Bank) :
    (s.afterEnable irq b).threadMayCommand := by
  obtain ⟨ha, hp, -⟩ := h
  simp [State.threadMayCommand, State.afterEnable, ha, hp]

/-- After DISABLE and its S_COMMIT THREAD may command again. -/
theorem State.threadMayCommand.afterDisable {s : State} (h : s.threadMayCommand) (irq : BitVec 8) (b : Bank) :
    (s.afterDisable irq b).threadMayCommand := by
  obtain ⟨ha, hp, -⟩ := h
  simp [State.threadMayCommand, State.afterDisable, ha, hp]

/-- ENABLE and its S_COMMIT set exactly the line's shadow bit (R145). -/
theorem State.afterEnable_getLsbD (s : State) (irq : BitVec 8) (b b' : Bank) (k : Nat) :
    ((s.afterEnable irq b).shadow b').getLsbD k =
      ((s.shadow b').getLsbD k || decide (b' = b ∧ k = irq.toNat % 32)) := by
  have hmask : (s.afterEnable irq b).shadow b' = if b' = b then s.shadow b' ||| bitmask irq else s.shadow b' := by
    rw [← s.csrWrite_shadow (enablePort b) (bitmask irq) b']
    exact State.commit_shadow_set rfl b'
  rw [hmask]
  by_cases hb : b' = b
  · simp [hb, bitmask_getLsbD]
  · simp [hb]

/-- DISABLE and its S_COMMIT clear exactly the line's shadow bit (R145). -/
theorem State.afterDisable_getLsbD (s : State) (irq : BitVec 8) (b b' : Bank) (k : Nat) :
    ((s.afterDisable irq b).shadow b').getLsbD k =
      ((s.shadow b').getLsbD k && !decide (b' = b ∧ k = irq.toNat % 32)) := by
  have hmask : (s.afterDisable irq b).shadow b' = if b' = b then s.shadow b' &&& ~~~bitmask irq else s.shadow b' := by
    rw [← s.csrWrite_shadow (disablePort b) (bitmask irq) b']
    exact State.commit_shadow_clr rfl b'
  rw [hmask]
  by_cases hb : b' = b
  · rw [if_pos hb, getLsbD_clearBits, bitmask_getLsbD]
    simp [hb]
  · simp [hb]

/-- The round trip of ENABLE and DISABLE clears exactly the line's shadow bit (R145). -/
theorem State.roundTrip_getLsbD (s : State) (irq : BitVec 8) (b b' : Bank) (k : Nat) :
    (((s.afterEnable irq b).afterDisable irq b).shadow b').getLsbD k =
      ((s.shadow b').getLsbD k && !decide (b' = b ∧ k = irq.toNat % 32)) := by
  rw [State.afterDisable_getLsbD, State.afterEnable_getLsbD, Bool.and_or_distrib_right, Bool.and_not_self,
    Bool.or_false]

/-- The round trip of ENABLE and DISABLE leaves the line's shadow bit 0 (R145). -/
theorem State.roundTrip_clear (s : State) (irq : BitVec 8) (b : Bank) :
    (((s.afterEnable irq b).afterDisable irq b).shadow b).getLsbD (irq.toNat % 32) = false := by
  simp [State.roundTrip_getLsbD]

/-- The round trip of ENABLE and DISABLE gives SHADOW back exactly where the line's bit was 0 (R145). -/
theorem State.roundTrip_shadow_eq_iff (s : State) (irq : BitVec 8) (b : Bank) :
    (∀ b', ((s.afterEnable irq b).afterDisable irq b).shadow b' = s.shadow b') ↔
      (s.shadow b).getLsbD (irq.toNat % 32) = false := by
  constructor
  · intro hsame
    rw [← hsame b]
    exact s.roundTrip_clear irq b
  · intro hclear b'
    refine BitVec.eq_of_getLsbD_eq fun k _ => ?_
    rw [s.roundTrip_getLsbD]
    by_cases hline : b' = b ∧ k = irq.toNat % 32
    · obtain ⟨rfl, rfl⟩ := hline
      rw [hclear, Bool.false_and]
    · simp [hline]

end Sys2Proof.Machine

/-- Settles O33: a word that decodes is the one its command's turn is made with, and that turn is refused. -/
theorem commandsOfAHandlerAreRefused : Obligations.CommandsOfAHandlerAreRefused := by
  intro s who c d0 d1 i ha hdecode
  obtain ⟨-, e0, e1, hencode, -⟩ := commandWordsDecodeWithoutLoss who c d0 d1 i hdecode
  obtain ⟨k, hturn⟩ := exec_eq_cmdTurn hencode
  exact (hturn s).trans (State.cmdTurn_handler i c k ha)

/-- Settles O34, from the shadow bits after each command with its S_COMMIT. -/
theorem enableThenDisableOnTheShadow : Obligations.EnableThenDisableOnTheShadow := by
  intro s irq b hmay hrange
  have hb : bankOfIrq irq = some b := (bankOfIrq_eq_some irq b).2 hrange
  have henabled := hmay.afterEnable irq b
  refine ⟨⟨s.afterEnable irq b, execAll_enable_commit [] hmay hb, henabled,
      fun b' k _ => s.afterEnable_getLsbD irq b b' k⟩,
    ⟨s.afterDisable irq b, execAll_disable_commit [] hmay hb, hmay.afterDisable irq b,
      fun b' k _ => s.afterDisable_getLsbD irq b b' k⟩,
    ⟨(s.afterEnable irq b).afterDisable irq b, ?_, s.roundTrip_shadow_eq_iff irq b, s.roundTrip_clear irq b⟩⟩
  exact (execAll_enable_commit _ hmay hb).trans (execAll_disable_commit [] henabled hb)

/-- Settles O27: in range one entry and the gate are written, out of range nothing. -/
theorem registerStoresItsEntryAndUnblocks : Obligations.RegisterStoresItsEntryAndUnblocks := by
  intro s irq v d0 ctx hmay
  refine ⟨fun hirq => ⟨_, exec_register v d0 ctx hmay hirq, ?_, fun j hj => ?_, rfl, rfl⟩,
    exec_register_outOfRange v d0 ctx hmay⟩
  · refine (s.vtEntry_setVt irq.toNat irq.toNat _).trans ?_
    rw [if_pos rfl, if_pos hirq]
  · exact (s.vtEntry_setVt irq.toNat j _).trans (if_neg hj.symm)

/-- Settles O28: each of the three commands finds no entry or no bank for its identifier. -/
theorem outOfRangeIdentifiersAreIgnored : Obligations.OutOfRangeIdentifiersAreIgnored :=
  fun _ _ v d0 ctx hmay hirq =>
    ⟨exec_register_outOfRange v d0 ctx hmay hirq, exec_enable_outOfRange hmay hirq, exec_disable_outOfRange hmay hirq⟩

/-- Settles O29: the write through the enable port of the line's bank, for each of the three banks. -/
theorem enableWritesTheHardwareFirst : Obligations.EnableWritesTheHardwareFirst := by
  intro s irq hmay m
  have hhalf {b : Bank} (hb : bankOfIrq irq = some b) :
      exec (.enable irq) s =
        .next { s.csrWrite (enablePort b) (m (irq.toNat - bankBase b)) with
          tpend := .set b (m (irq.toNat - bankBase b)) } := by
    rw [exec_enable hmay hb, bitmask_of_bank hb]
  exact ⟨fun hhigh => hhalf (bankOfIrq_b0 hhigh), fun hlow hhigh => hhalf (bankOfIrq_b1 hlow hhigh),
    fun hlow hhigh => hhalf (bankOfIrq_b2 hlow hhigh), exec_enable_outOfRange hmay⟩

/-- Settles O30: the write through the disable port of the line's bank, for each of the three banks. -/
theorem disableWritesTheHardwareFirst : Obligations.DisableWritesTheHardwareFirst := by
  intro s irq hmay m
  have hhalf {b : Bank} (hb : bankOfIrq irq = some b) :
      exec (.disable irq) s =
        .next { s.csrWrite (disablePort b) (m (irq.toNat - bankBase b)) with
          tpend := .clr b (m (irq.toNat - bankBase b)) } := by
    rw [exec_disable hmay hb, bitmask_of_bank hb]
  exact ⟨fun hhigh => hhalf (bankOfIrq_b0 hhigh), fun hlow hhigh => hhalf (bankOfIrq_b1 hlow hhigh),
    fun hlow hhigh => hhalf (bankOfIrq_b2 hlow hhigh), exec_disable_outOfRange hmay⟩

/-- Settles O31: the commit of either kind writes one mask, and TPEND. -/
theorem commitWritesTheShadowMask : Obligations.CommitWritesTheShadowMask := by
  intro s b m hp
  refine ⟨fun ht => ⟨s.commit, exec_sCommit hp (by rw [ht]; nofun), s.commit_tpend, ?_, fun b' hne => ?_,
      s.commit_frame⟩,
    fun ht => ⟨s.commit, exec_sCommit hp (by rw [ht]; nofun), s.commit_tpend, ?_, fun b' hne => ?_, s.commit_frame⟩⟩
  · exact (State.commit_shadow_set ht b).trans (if_pos rfl)
  · exact (State.commit_shadow_set ht b').trans (if_neg hne)
  · exact (State.commit_shadow_clr ht b).trans (if_pos rfl)
  · exact (State.commit_shadow_clr ht b').trans (if_neg hne)

end

section
/-! PROOFS. The dispatcher (42_dispatch.md): what each of its steps does, the calls an entry has still to emit, the
steps it has still to take, and the run of an entry to its end. -/

open Sys2Proof Sys2Proof.Machine

namespace Sys2Proof.Machine

/-! ### The steps of the dispatcher -/

/-- ENTRY in Idle with the gate open (R160). -/
theorem exec_entry {s : State} (hp : s.phase = .idle) (hg : s.gmask = false) : exec .entry s = .next s.takeEntry :=
  State.turn_taken (fun s => .next s.takeEntry) (State.findsCorruptPhase_of_legal (by rw [hp]; rfl))
    (s.entryGuard_iff.2 ⟨hp, hg⟩)

/-- S_BSR in BasicStatusRead (R162). -/
theorem exec_sBsr {s : State} (hp : s.phase = .basicStatusRead) (ha : s.awaiting = false) :
    exec .sBsr s = .next s.snapshot :=
  State.turn_taken (fun s => .next s.snapshot) (State.findsCorruptPhase_of_legal (by rw [hp]; rfl))
    (s.bsrGuard_iff.2 ⟨hp, ha⟩)

/-- A scan step whose guard holds is its effect on the bank that PHASE names (R163). -/
theorem turn_inBank {s : State} {b : Bank} {g : Bool} (op : Operation) (k : State → Bank → Result)
    (hb : s.phase.bank = some b) (hg : g = true) : (s.turn op g fun s => s.inBank (k s)) = k s b :=
  (State.turn_taken _ (State.findsCorruptPhase_of_legal (Phase.bank_legal hb)) hg).trans (State.inBank_of_bank (k s) hb)

/-- S_LOAD of a bank that is not loaded (R164). -/
theorem exec_sLoad {s : State} {b : Bank} (hb : s.phase.bank = some b) (hl : s.loaded = false)
    (ha : s.awaiting = false) : exec .sLoad s = .next (s.loadBank b) :=
  turn_inBank _ (fun s b => .next (s.loadBank b)) hb (s.loadGuard_iff.2 ⟨by rw [hb]; rfl, hl, ha⟩)

/-- S_SELECT in a loaded bank with a bit to serve (R166). -/
theorem exec_sSelect {s : State} {b : Bank} (hb : s.phase.bank = some b) (hl : s.loaded = true)
    (ha : s.awaiting = false) (hw : s.w ≠ 0#32) : exec .sSelect s = s.selectIn b :=
  turn_inBank _ State.selectIn hb (s.selectGuard_iff.2 ⟨by rw [hb]; rfl, hl, ha, hw⟩)

/-- S_DONE in a loaded bank with no bit to serve (R167). -/
theorem exec_sDone {s : State} {b : Bank} (hb : s.phase.bank = some b) (hl : s.loaded = true)
    (ha : s.awaiting = false) (hw : s.w = 0#32) : exec .sDone s = .next (s.leaveBank b) :=
  turn_inBank _ (fun s b => .next (s.leaveBank b)) hb (s.doneGuard_iff.2 ⟨by rw [hb]; rfl, hl, ha, hw⟩)

/-- HRET of a handler that runs (R169). -/
theorem exec_hret_awaiting {s : State} (ha : s.awaiting = true) : exec .hret s = .next s.handlerReturn :=
  (exec_hret s).trans (congrArg _ (if_pos ha))

/-- The state S_SELECT leaves where it finds entry e for the highest bit of W: the handler called, or the bit skipped
(R166). -/
def State.selectEntry (s : State) (b : Bank) (e : VtEntry) : State :=
  if e.hvalid then s.callHandler b (msb32 s.w) e else { s with w := clearBit s.w (msb32 s.w) }

/-- S_SELECT where VT has the entry (R166). -/
theorem State.selectIn_of_vtEntry {s : State} {b : Bank} {e : VtEntry}
    (he : s.vtEntry (bankBase b + msb32 s.w) = some e) : s.selectIn b = .next (s.selectEntry b e) := by
  rw [State.selectIn, he, State.selectEntry, apply_ite Host.Outcome.next]

/-- The low byte of a word, as its mask and as its field (R163). -/
theorem lowByte_eq_extract (w : Word) : w &&& 0xFF#32 = (w.extractLsb' 0 8).setWidth 32 := by
  refine BitVec.eq_of_getLsbD_eq fun k hk => ?_
  rw [lowByte_getLsbD]
  simp [hk]

/-- The summary of bank 2 is that some bit of the low byte is set (R163). -/
theorem summary_b2 (bsnap : Word) : summary bsnap .b2 = true ↔ bsnap.extractLsb' 0 8 ≠ 0#8 := by
  rw [summary, lowByte_eq_extract, bne_iff_ne, ne_eq, ne_eq, not_iff_not]
  constructor
  · intro h
    simpa using congrArg (BitVec.setWidth 8) h
  · intro h
    rw [h]
    rfl

/-- The state with the filtered pending word of bank b loaded (R164). -/
def State.loadWord (s : State) (b : Bank) : State := { s with w := s.source b &&& s.shadow b, loaded := true }

/-- S_LOAD of a bank whose summary is set (R164). -/
theorem State.loadBank_of_summary {s : State} {b : Bank} (h : summary s.bsnap b = true) :
    s.loadBank b = s.loadWord b := if_pos h

/-- S_LOAD of a bank whose summary is clear (R164). -/
theorem State.loadBank_of_no_summary {s : State} {b : Bank} (h : summary s.bsnap b = false) :
    s.loadBank b = s.leaveBank b := if_neg (Bool.not_eq_true _ ▸ h)

/-- Leaving a bank that is not loaded changes PHASE alone (R164). -/
theorem State.leaveBank_unloaded {s : State} (b : Bank) (hl : s.loaded = false) :
    s.leaveBank b = { s with phase := nextPhase b } := by
  rw [State.leaveBank, ← hl]

/-- The coherence of a payload, as R53 states it. -/
theorem coherentInputs_iff (basic pend1 pend2 : Word) :
    coherentInputs basic pend1 pend2 = true ↔
      (basic.getLsbD 8 = true ↔ pend1 ≠ 0#32) ∧ (basic.getLsbD 9 = true ↔ pend2 ≠ 0#32) := by
  have hbit (bit : Bool) (pend : Word) : bit = (pend != 0#32) ↔ (bit = true ↔ pend ≠ 0#32) := by
    rw [Bool.eq_iff_iff, bne_iff_ne]
  rw [coherentInputs, Bool.and_eq_true, beq_iff_eq, beq_iff_eq, hbit, hbit]

/-- W less one bit, every other bit as it was (R168). -/
theorem clearBit_getLsbD_ne (w : Word) (k j : Nat) :
    (clearBit w k).getLsbD j = (w.getLsbD j && decide (j ≠ k)) := by
  rw [clearBit_getLsbD, decide_not]

/-! ### What operations leave unchanged -/

/-- The inputs are written by ENV alone (R172). -/
theorem Effect.inputs_cases {s t : State} {i : Instr} (he : Effect s i t) :
    (t.inBasic = s.inBasic ∧ t.inPend1 = s.inPend1 ∧ t.inPend2 = s.inPend2) ∨ ∃ b p1 p2, i = .env b p1 p2 := by
  cases he with
  | env basic pend1 pend2 => exact .inr ⟨basic, pend1, pend2, rfl⟩
  | _ => exact .inl (by simp)

/-- `t` with what may change while a handler runs as it is in `s`: HWEN, REFUSED and the model's own records, and the
inputs (R177). -/
def State.restoreHeldFields (s t : State) : State :=
  { s.restoreCsrFields t with inBasic := s.inBasic, inPend1 := s.inPend1, inPend2 := s.inPend2 }

/-- While a handler runs, what is not its return is a CSR access, ENV, a refused command, or waits (R177). -/
theorem Effect.restoreHeldFields {s t : State} {i : Instr} (he : Effect s i t) (hs : EngineInv s)
    (ha : s.awaiting = true) (hi : i ≠ .hret) : s.restoreHeldFields t = s := by
  have hbusy : s.awaiting ≠ false := Bool.ne_false_iff.2 ha
  have hidle (hp : s.phase = .idle) : False := hbusy (hs.idle hp).2
  have hthread (h : s.threadMayCommand) : False := hbusy h.1
  cases he with
  | corrupt h => exact absurd (State.findsCorruptPhase_of_awaiting ha) (Bool.ne_false_iff.2 h)
  | waits | inHandler | env => rfl
  | read r => simp [State.restoreHeldFields]
  | write r v => simp [State.restoreHeldFields]
  | hret => exact absurd rfl hi
  | entry hp | commit hp => exact (hidle hp).elim
  | ignored h | register _ _ _ _ h | enable _ _ h | disable _ _ h | block h | unblock h => exact (hthread h).elim
  | bsr _ hfree | load _ _ _ hfree | skip _ _ _ hfree | call _ _ _ _ hfree | noHandler _ _ _ _ hfree
  | done _ _ _ hfree => exact absurd hfree hbusy

/-! ### The lines of a loaded bank -/

/-- A word with no bit outside of a mask has each of its bits in the mask. -/
theorem getLsbD_of_and_not_eq_zero {w m : Word} {k : Nat} (h : w &&& ~~~m = 0#32) (hk : w.getLsbD k = true) :
    m.getLsbD k = true := by
  have hbit : (w &&& ~~~m).getLsbD k = false := by rw [h, BitVec.getLsbD_zero]
  rw [getLsbD_clearBits, hk] at hbit
  simpa using hbit

/-- Each bit of a loaded W is a line of its bank (R168). -/
theorem EngineInv.line_lt {s : State} {b : Bank} {k : Nat} (hs : EngineInv s) (hb : s.phase.bank = some b)
    (hl : s.loaded = true) (hk : s.w.getLsbD k = true) : k < bankLines b := by
  have hword : k < 32 := BitVec.lt_of_getLsbD hk
  cases b with
  | b0 | b1 => exact hword
  | b2 =>
    have hp : s.phase = .bank2Scan := by simpa [Phase.bank_eq_some] using hb
    have hlow : (0xFF#32 &&& 0xFF#32).getLsbD k = true := getLsbD_of_and_not_eq_zero (hs.bank2Narrow hp hl) hk
    rw [lowByte_getLsbD, Bool.and_eq_true, decide_eq_true_eq] at hlow
    exact hlow.1

/-- The lines of the three banks are those of VT (R6, R168). -/
theorem bankBase_add_lt {b : Bank} {k : Nat} (hk : k < bankLines b) : bankBase b + k < 72 := by
  cases b <;> simp only [bankBase, bankLines] at hk ⊢ <;> omega

/-- VT has the entry S_SELECT reads (R168). -/
theorem EngineInv.vtEntry_msb32 {s : State} {b : Bank} (hs : EngineInv s) (hb : s.phase.bank = some b)
    (hl : s.loaded = true) (hw : s.w ≠ 0#32) : ∃ e, s.vtEntry (bankBase b + msb32 s.w) = some e := by
  refine Option.isSome_iff_exists.1 ?_
  rw [State.vtEntry_isSome, decide_eq_true (bankBase_add_lt (hs.line_lt hb hl (msb32_set s.w hw)))]

/-- Serving a set bit leaves a smaller word (R170). -/
theorem clearBit_toNat_lt {w : Word} {k : Nat} (hk : w.getLsbD k = true) : (clearBit w k).toNat < w.toNat := by
  have hle : (clearBit w k).toNat ≤ w.toNat := by
    rw [clearBit, BitVec.toNat_and]
    exact Nat.and_le_left
  refine lt_of_le_of_ne hle fun heq => ?_
  have hbit := clearBit_getLsbD w k k
  rw [BitVec.eq_of_toNat_eq heq, hk] at hbit
  simp at hbit

/-! ### No operation stops -/

/-- A turn answers a next state where its effect does. -/
theorem turn_next {s : State} {op : Operation} {g : Bool} {k : State → Result}
    (hk : g = true → ∃ t, k s = .next t) : ∃ t, s.turn op g k = .next t := by
  cases hc : s.findsCorruptPhase with
  | true => exact ⟨_, State.turn_corrupt k hc⟩
  | false =>
    cases g with
    | true => rw [State.turn_taken k hc rfl]; exact hk rfl
    | false => exact ⟨_, State.turn_waits k hc rfl⟩

/-- A CSR access answers a next state where its effect does. -/
theorem csrTurn_next {s : State} {op : Operation} {k : State → Result} (hk : ∃ t, k s = .next t) :
    ∃ t, s.csrTurn op k = .next t :=
  turn_next fun _ => hk

/-- A command answers a next state where its effect does. -/
theorem cmdTurn_next {s : State} {i : Instr} {word : Word} {k : State → Result} (hk : ∃ t, k s = .next t) :
    ∃ t, s.cmdTurn i word k = .next t := by
  refine turn_next fun _ => ?_
  split
  · exact ⟨_, rfl⟩
  · exact hk

/-- A scan step answers a next state where its effect on a bank does. -/
theorem inBank_next {s : State} {k : Bank → Result} (hk : ∀ b, s.phase.bank = some b → ∃ t, k b = .next t) :
    ∃ t, s.inBank k = .next t := by
  cases hb : s.phase.bank with
  | none => exact ⟨s, by rw [State.inBank, hb]⟩
  | some b => rw [State.inBank_of_bank k hb]; exact hk b hb

/-- S_SELECT finds its entry in every state of the invariant (R168). -/
theorem EngineInv.exec_sSelect_next {s : State} (hs : EngineInv s) : ∃ t, exec .sSelect s = .next t := by
  unfold exec
  refine turn_next fun hg => ?_
  refine inBank_next fun b hb => ?_
  obtain ⟨-, hl, -, hw⟩ := s.selectGuard_iff.1 hg
  obtain ⟨e, he⟩ := hs.vtEntry_msb32 hb hl hw
  exact ⟨_, State.selectIn_of_vtEntry he⟩

/-- No operation stops in a state of the invariant (R168, R210). -/
theorem EngineInv.exec_next {s : State} (hs : EngineInv s) (i : Instr) : ∃ t, exec i s = .next t := by
  cases i with
  | sSelect => exact hs.exec_sSelect_next
  | register irq v handler context =>
    unfold exec
    refine cmdTurn_next ?_
    split <;> exact ⟨_, rfl⟩
  | enable irq | disable irq =>
    unfold exec
    refine cmdTurn_next ?_
    split <;> exact ⟨_, rfl⟩
  | block | unblock =>
    unfold exec
    refine cmdTurn_next ?_
    exact ⟨_, rfl⟩
  | hret => exact ⟨_, exec_hret s⟩
  | env basic pend1 pend2 => exact ⟨_, exec_env basic pend1 pend2 s⟩
  | sLoad | sDone =>
    unfold exec
    refine turn_next fun _ => ?_
    refine inBank_next fun b _ => ?_
    exact ⟨_, rfl⟩
  | entry | sBsr | sCommit =>
    unfold exec
    refine turn_next fun _ => ?_
    exact ⟨_, rfl⟩
  | _ =>
    unfold exec
    refine csrTurn_next ?_
    exact ⟨_, rfl⟩

/-! ### The steps of an entry in progress -/

/-- The steps of the dispatcher after ENTRY (R161). -/
def entrySteps : List Instr := [.sBsr, .sLoad, .sSelect, .sDone, .hret]

/-- What a step of an entry in progress does where it is enabled (R162 to R169). -/
inductive EntryStep (s : State) : Instr → State → Prop
  | bsr (hp : s.phase = .basicStatusRead) (ha : s.awaiting = false) : EntryStep s .sBsr s.snapshot
  | load (b : Bank) (hb : s.phase.bank = some b) (hl : s.loaded = false) (ha : s.awaiting = false) :
      EntryStep s .sLoad (s.loadBank b)
  | select (b : Bank) (e : VtEntry) (hb : s.phase.bank = some b) (hl : s.loaded = true) (ha : s.awaiting = false)
      (hw : s.w ≠ 0#32) (he : s.vtEntry (bankBase b + msb32 s.w) = some e) : EntryStep s .sSelect (s.selectEntry b e)
  | done (b : Bank) (hb : s.phase.bank = some b) (hl : s.loaded = true) (ha : s.awaiting = false) (hw : s.w = 0#32) :
      EntryStep s .sDone (s.leaveBank b)
  | hret (b : Bank) (hb : s.phase.bank = some b) (hl : s.loaded = true) (ha : s.awaiting = true) :
      EntryStep s .hret s.handlerReturn

/-- The steps are what exec answers. -/
theorem EntryStep.exec {s t : State} {i : Instr} (h : EntryStep s i t) : exec i s = .next t := by
  cases h with
  | bsr hp ha => exact exec_sBsr hp ha
  | load b hb hl ha => exact exec_sLoad hb hl ha
  | select b e hb hl ha hw he => exact (exec_sSelect hb hl ha hw).trans (State.selectIn_of_vtEntry he)
  | done b hb hl ha hw => exact exec_sDone hb hl ha hw
  | hret b hb hl ha => exact exec_hret_awaiting ha

/-- A step of an entry keeps the invariant. -/
theorem EntryStep.engineInv {s t : State} {i : Instr} (h : EntryStep s i t) (hs : EngineInv s) : EngineInv t :=
  (exec_effect h.exec).keeps_engineInv hs

/-- In a state of the invariant each enabled step of an entry is one of these. -/
theorem entryStep_of_enabled {s : State} {i : Instr} (hs : EngineInv s) (hi : i ∈ entrySteps)
    (hen : enabled i s = true) : ∃ t, EntryStep s i t := by
  obtain ⟨-, -, hbsr, hload, hselect, hdone, hhret, -, -⟩ := theGuardsOfTheOperations s hs.phaseLegal
  simp only [entrySteps, List.mem_cons, List.not_mem_nil, or_false] at hi
  rcases hi with rfl | rfl | rfl | rfl | rfl
  · obtain ⟨hp, ha⟩ := hbsr.1 hen
    exact ⟨_, .bsr hp ha⟩
  · obtain ⟨hscan, hl, ha⟩ := hload.1 hen
    obtain ⟨b, hb⟩ := Option.isSome_iff_exists.1 hscan
    exact ⟨_, .load b hb hl ha⟩
  · obtain ⟨hscan, hl, ha, hw⟩ := hselect.1 hen
    obtain ⟨b, hb⟩ := Option.isSome_iff_exists.1 hscan
    obtain ⟨e, he⟩ := hs.vtEntry_msb32 hb hl hw
    exact ⟨_, .select b e hb hl ha hw he⟩
  · obtain ⟨hscan, hl, ha, hw⟩ := hdone.1 hen
    obtain ⟨b, hb⟩ := Option.isSome_iff_exists.1 hscan
    exact ⟨_, .done b hb hl ha hw⟩
  · have ha := hhret.1 hen
    have hl := hs.awaitLoaded ha
    obtain ⟨b, hb⟩ := Option.isSome_iff_exists.1 (hs.loadedInScan hl)
    exact ⟨_, .hret b hb hl ha⟩

/-- In a state of the invariant a step of an entry that answers next did one of these, or waited. -/
theorem entryStep_or_waits {s t : State} {i : Instr} (hs : EngineInv s) (hi : i ∈ entrySteps)
    (h : exec i s = .next t) : EntryStep s i t ∨ t = s := by
  cases hen : enabled i s with
  | true =>
    obtain ⟨u, hu⟩ := entryStep_of_enabled hs hi hen
    rw [← Host.Outcome.next.inj (hu.exec.symm.trans h)]
    exact .inl hu
  | false => exact .inr (Host.Outcome.next.inj ((anOperationThatIsNotEnabledWaits i s hen).symm.trans h)).symm

/-- Outside of Idle the step of the state's row is enabled (R161). -/
theorem enabled_dispatcherStep {s : State} (hs : EngineInv s) (hp : s.phase ≠ .idle) :
    s.dispatcherStep ∈ entrySteps ∧ enabled s.dispatcherStep s = true := by
  obtain ⟨-, -, hbsr, hload, hselect, hdone, hhret, -, -⟩ := theGuardsOfTheOperations s hs.phaseLegal
  have hscan (hnot : s.phase ≠ .basicStatusRead) : s.phase.bank.isSome = true := by
    have hlegal := hs.phaseLegal
    cases hphase : s.phase with
    | idle => exact absurd hphase hp
    | basicStatusRead => exact absurd hphase hnot
    | bank0Scan | bank1Scan | bank2Scan => rfl
    | corrupt5 | corrupt6 | corrupt7 => rw [hphase] at hlegal; cases hlegal
  unfold State.dispatcherStep
  split_ifs with ha hb hl hw
  · exact ⟨by simp [entrySteps], hhret.2 ha⟩
  · exact ⟨by simp [entrySteps], hbsr.2 ⟨hb, by simpa using ha⟩⟩
  · exact ⟨by simp [entrySteps], hload.2 ⟨hscan hb, by simpa using hl, by simpa using ha⟩⟩
  · exact ⟨by simp [entrySteps], hdone.2 ⟨hscan hb, by simpa using hl, by simpa using ha, hw⟩⟩
  · exact ⟨by simp [entrySteps], hselect.2 ⟨hscan hb, by simpa using hl, by simpa using ha, hw⟩⟩

/-- An entry in progress can go on (R170). -/
theorem EngineInv.entryStep {s : State} (hs : EngineInv s) (hp : s.phase ≠ .idle) :
    ∃ t, EntryStep s s.dispatcherStep t := by
  obtain ⟨hi, hen⟩ := enabled_dispatcherStep hs hp
  exact entryStep_of_enabled hs hi hen

/-! ### The machine's own step (log 9) -/

/-- With no offer to take the machine takes its internal step. -/
theorem step_internal {s : State} {i : Instr} (hnone : nextOffer s = none) (hi : internalStep s = some i) :
    step s = exec i s := by
  simp [step, hnone, hi]

/-- While a handler runs there is no internal step (R31). -/
theorem internalStep_awaiting {s : State} (ha : s.awaiting = true) : internalStep s = none := by
  simp [internalStep, ha]

/-- The internal step of an entry in progress is that of the state's row (R161). -/
theorem internalStep_entry {s : State} (hs : EngineInv s) (ha : s.awaiting = false) (hp : s.phase ≠ .idle) :
    internalStep s = some s.dispatcherStep := by
  have hlegal := hs.phaseLegal
  cases hphase : s.phase with
  | idle => exact absurd hphase hp
  | basicStatusRead => simp [internalStep, State.dispatcherStep, ha, hphase]
  | bank0Scan | bank1Scan | bank2Scan =>
    simp [internalStep, internalStep.scanStep, State.dispatcherStep, ha, hphase, apply_ite some]
  | corrupt5 | corrupt6 | corrupt7 => rw [hphase] at hlegal; cases hlegal

/-- The internal step of Idle: a pending commit before an entry (R143, R217). -/
theorem internalStep_idle {s : State} (ha : s.awaiting = false) (hp : s.phase = .idle) :
    internalStep s =
      if s.tpend ≠ .none then some .sCommit else if !s.gmask && s.irqLine then some .entry else none := by
  simp [internalStep, ha, hp]

/-- With no offer to take an entry in progress goes on by the step of the state's row. -/
theorem step_entry {s : State} (hs : EngineInv s) (hnone : nextOffer s = none) (ha : s.awaiting = false)
    (hp : s.phase ≠ .idle) : step s = exec s.dispatcherStep s :=
  step_internal hnone (internalStep_entry hs ha hp)

/-- An entry in progress whose handlers only return goes on by the step of the state's row. -/
theorem quietStep_entry {s : State} (hs : EngineInv s) (hp : s.phase ≠ .idle) :
    quietStep s = exec s.dispatcherStep s := by
  cases ha : s.awaiting with
  | true => simp [quietStep, State.dispatcherStep, ha]
  | false => simp [quietStep, internalStep_entry hs ha hp, ha]

/-! ### The inputs of a loaded bank -/

/-- The state with other inputs. -/
def State.withInputs (basic pend1 pend2 : Word) (s : State) : State :=
  { s with inBasic := basic, inPend1 := pend1, inPend2 := pend2 }

/-- Whether an operation is enabled does not depend on the inputs. -/
theorem enabled_withInputs (i : Instr) (s : State) (basic pend1 pend2 : Word) :
    enabled i (s.withInputs basic pend1 pend2) = enabled i s := by
  cases i <;> rfl

/-- A step that reads no input: the steps of a loaded bank, and S_LOAD of bank 2 (R164, R179). -/
def ReadsNoInput (s : State) (i : Instr) : Prop :=
  s.loaded = true ∧ i ∈ [Instr.sSelect, .hret, .sDone] ∨ s.phase = .bank2Scan ∧ i = .sLoad

/-- Such a step takes states that differ in the inputs alone to states that differ in the inputs alone (R179). -/
theorem EntryStep.withInputs {s t : State} {i : Instr} (h : EntryStep s i t) (hread : ReadsNoInput s i)
    (basic pend1 pend2 : Word) : EntryStep (s.withInputs basic pend1 pend2) i (t.withInputs basic pend1 pend2) := by
  cases h with
  | bsr => simp [ReadsNoInput] at hread
  | load b hb hl ha =>
    obtain rfl : b = .b2 := by
      rcases hread with ⟨-, hi⟩ | ⟨hp, -⟩
      · simp at hi
      · simpa [hp, Phase.bank] using hb.symm
    have hload : (s.loadBank .b2).withInputs basic pend1 pend2 = (s.withInputs basic pend1 pend2).loadBank .b2 :=
      apply_ite (State.withInputs basic pend1 pend2) _ _ _
    rw [hload]
    exact .load (s := s.withInputs basic pend1 pend2) .b2 hb hl ha
  | select b e hb hl ha hw he =>
    have hselect :
        (s.selectEntry b e).withInputs basic pend1 pend2 = (s.withInputs basic pend1 pend2).selectEntry b e :=
      apply_ite (State.withInputs basic pend1 pend2) _ _ _
    rw [hselect]
    exact .select (s := s.withInputs basic pend1 pend2) b e hb hl ha hw he
  | done b hb hl ha hw => exact .done (s := s.withInputs basic pend1 pend2) b hb hl ha hw
  | hret b hb hl ha => exact .hret (s := s.withInputs basic pend1 pend2) b hb hl ha

/-- The two runs of a step that reads no input (R179). -/
theorem exec_withInputs {s : State} {i : Instr} (hs : EngineInv s) (hi : i ∈ entrySteps) (hread : ReadsNoInput s i)
    (basic pend1 pend2 : Word) :
    ∃ t, exec i s = .next t ∧
      exec i (s.withInputs basic pend1 pend2) = .next (t.withInputs basic pend1 pend2) := by
  cases hen : enabled i s with
  | true =>
    obtain ⟨t, ht⟩ := entryStep_of_enabled hs hi hen
    exact ⟨t, ht.exec, (ht.withInputs hread basic pend1 pend2).exec⟩
  | false =>
    exact ⟨s, anOperationThatIsNotEnabledWaits i s hen,
      anOperationThatIsNotEnabledWaits i _ ((enabled_withInputs i s basic pend1 pend2).trans hen)⟩

/-! ### The calls of a word -/

/-- A word without a bit calls nobody. -/
theorem wordCalls_zero (vt : Vector VtEntry 72) (b : Bank) : wordCalls vt b 0#32 = [] := by
  have hbelow (n : Nat) : callsBelow vt b 0#32 n = [] := by
    induction n with
    | zero => rfl
    | succ n ih => simp [callsBelow, ih]
  exact hbelow 32

/-- The calls of the lines below n come from the bits below n. -/
theorem callsBelow_congr (vt : Vector VtEntry 72) (b : Bank) {v w : Word} {n : Nat}
    (h : ∀ j, j < n → v.getLsbD j = w.getLsbD j) : callsBelow vt b v n = callsBelow vt b w n := by
  induction n with
  | zero => rfl
  | succ n ih => rw [callsBelow, callsBelow, h n n.lt_succ_self, ih fun j hj => h j (Nat.lt_succ_of_lt hj)]

/-- The highest line is called first, then those of the word less its bit. -/
theorem callsBelow_highest (vt : Vector VtEntry 72) (b : Bank) {w : Word} {k n : Nat} (hk : w.getLsbD k = true)
    (habove : ∀ j, k < j → w.getLsbD j = false) (hn : k < n) :
    callsBelow vt b w n = lineCall vt b k ++ callsBelow vt b (clearBit w k) n := by
  induction n with
  | zero => omega
  | succ n ih =>
    rw [callsBelow, callsBelow]
    by_cases hkn : n = k
    · subst hkn
      have hrest : callsBelow vt b w n = callsBelow vt b (clearBit w n) n :=
        callsBelow_congr vt b fun j hj => by simp [Nat.ne_of_lt hj]
      simp [hk, hrest]
    · have hlow : k < n := by omega
      simp [habove n hlow, ih hlow]

/-- R165 on the calls of a word: the highest line first, then those of the word less its bit. -/
theorem wordCalls_msb32 (vt : Vector VtEntry 72) (b : Bank) {w : Word} (hw : w ≠ 0#32) :
    wordCalls vt b w = lineCall vt b (msb32 w) ++ wordCalls vt b (clearBit w (msb32 w)) :=
  callsBelow_highest vt b (msb32_set w hw) (msb32_clear_above w) (msb32_lt w)

/-- The call of a line, from its entry (R166). -/
theorem lineCall_of_vtEntry {s : State} {b : Bank} {k : Nat} {e : VtEntry}
    (he : s.vtEntry (bankBase b + k) = some e) :
    lineCall s.vt b k =
      if e.hvalid then [⟨e.handler, BitVec.ofNat 8 (bankBase b + k), e.context⟩] else [] := by
  rw [State.vtEntry] at he
  rw [lineCall, he]

/-! ### The calls an entry has still to emit (R175) -/

/-- The calls of the banks behind bank b, as the inputs stand. -/
def State.laterCalls (s : State) : Bank → List Call
  | .b0 => s.bankCalls s.bsnap s.inPend1 s.inPend2 .b1 ++ s.bankCalls s.bsnap s.inPend1 s.inPend2 .b2
  | .b1 => s.bankCalls s.bsnap s.inPend1 s.inPend2 .b2
  | .b2 => []

/-- In a scan: those of the current bank, then those of the banks behind it. -/
theorem State.callsLeft_of_bank {s : State} {b : Bank} (hb : s.phase.bank = some b) :
    s.callsLeft = s.bankLeft b ++ s.laterCalls b := by
  rcases Phase.bank_eq_some.1 hb with ⟨hp, rfl⟩ | ⟨hp, rfl⟩ | ⟨hp, rfl⟩ <;>
    simp [State.callsLeft, State.laterCalls, hp]

/-- Leaving a bank leaves the calls of the banks behind it. -/
theorem State.callsLeft_leaveBank (s : State) (b : Bank) : (s.leaveBank b).callsLeft = s.laterCalls b := by
  cases b <;> rfl

/-- The calls of a bank once loaded. -/
theorem State.bankLeft_loaded {s : State} (b : Bank) (hl : s.loaded = true) :
    s.bankLeft b = wordCalls s.vt b s.unserved := by
  rw [State.bankLeft, if_pos hl]

/-- The calls of a bank before it is loaded. -/
theorem State.bankLeft_unloaded {s : State} (b : Bank) (hl : s.loaded = false) :
    s.bankLeft b = s.bankCalls s.bsnap s.inPend1 s.inPend2 b := by
  simp [State.bankLeft, hl]

/-- With no call outstanding all of W is unserved. -/
theorem State.unserved_free {s : State} (ha : s.awaiting = false) : s.unserved = s.w := by
  simp [State.unserved, ha]

/-- With a call outstanding its bit is no longer unserved. -/
theorem State.unserved_awaiting {s : State} (ha : s.awaiting = true) :
    s.unserved = clearBit s.w s.curBit.toNat := by
  simp [State.unserved, ha]

/-- S_SELECT leaves W less its highest bit unserved, whether it calls or skips (R166). -/
theorem State.selectEntry_unserved {s : State} (b : Bank) (e : VtEntry) (ha : s.awaiting = false) :
    (s.selectEntry b e).unserved = clearBit s.w (msb32 s.w) := by
  unfold State.selectEntry
  split_ifs
  · rw [State.unserved_awaiting rfl, State.callHandler_w, State.callHandler_curBit, ofNat_msb32_toNat]
  · exact State.unserved_free ha

/-- S_SELECT appends the call of its line (R166). -/
theorem State.selectEntry_trace {s : State} {b : Bank} {e : VtEntry}
    (he : s.vtEntry (bankBase b + msb32 s.w) = some e) :
    (s.selectEntry b e).trace = s.trace ++ lineCall s.vt b (msb32 s.w) := by
  rw [lineCall_of_vtEntry he, State.selectEntry]
  split_ifs
  · rfl
  · exact (List.append_nil _).symm

@[simp] theorem State.selectEntry_phase (s : State) (b : Bank) (e : VtEntry) :
    (s.selectEntry b e).phase = s.phase := by
  unfold State.selectEntry; split_ifs <;> rfl
@[simp] theorem State.selectEntry_loaded (s : State) (b : Bank) (e : VtEntry) :
    (s.selectEntry b e).loaded = s.loaded := by
  unfold State.selectEntry; split_ifs <;> rfl
@[simp] theorem State.selectEntry_vt (s : State) (b : Bank) (e : VtEntry) : (s.selectEntry b e).vt = s.vt := by
  unfold State.selectEntry; split_ifs <;> rfl
@[simp] theorem State.selectEntry_laterCalls (s : State) (b : Bank) (e : VtEntry) :
    (s.selectEntry b e).laterCalls = s.laterCalls := by
  unfold State.selectEntry; split_ifs <;> rfl

/-- The word S_LOAD takes is the one of the closed form (R164, R175). -/
theorem State.source_eq_pendingWord (s : State) (b : Bank) :
    s.source b = pendingWord s.bsnap s.inPend1 s.inPend2 b := by
  cases b <;> rfl

/-- Loading a bank, or skipping it, keeps the calls the entry has still to emit (R164). -/
theorem State.callsLeft_loadBank {s : State} {b : Bank} (hb : s.phase.bank = some b) (hl : s.loaded = false)
    (ha : s.awaiting = false) : (s.loadBank b).callsLeft = s.callsLeft := by
  rw [State.callsLeft_of_bank hb, State.bankLeft_unloaded b hl, State.bankCalls]
  cases hsum : summary s.bsnap b with
  | true =>
    rw [State.loadBank_of_summary hsum, State.callsLeft_of_bank (s := s.loadWord b) hb,
      State.bankLeft_loaded (s := s.loadWord b) b rfl, State.unserved_free (s := s.loadWord b) ha,
      ← s.source_eq_pendingWord b]
    rfl
  | false =>
    rw [State.loadBank_of_no_summary hsum, State.callsLeft_leaveBank]
    rfl

/-- Each step of an entry keeps the calls emitted together with those still to come (R170, R175). -/
theorem EntryStep.trace_callsLeft {s t : State} {i : Instr} (h : EntryStep s i t) :
    t.trace ++ t.callsLeft = s.trace ++ s.callsLeft := by
  cases h with
  | bsr hp =>
    have hleft : s.callsLeft = s.entryCalls s.inBasic s.inPend1 s.inPend2 := by simp [State.callsLeft, hp]
    rw [hleft]
    rfl
  | load b hb hl ha => rw [State.callsLeft_loadBank hb hl ha, State.loadBank_trace]
  | select b e hb hl ha hw he =>
    rw [State.callsLeft_of_bank hb, State.callsLeft_of_bank (b := b) (by simpa using hb), State.bankLeft_loaded b hl,
      State.bankLeft_loaded b (by simpa using hl), State.unserved_free ha, State.selectEntry_unserved b e ha,
      State.selectEntry_trace he, State.selectEntry_vt, State.selectEntry_laterCalls, wordCalls_msb32 s.vt b hw]
    simp only [List.append_assoc]
  | done b hb hl ha hw =>
    rw [State.callsLeft_leaveBank, State.callsLeft_of_bank hb, State.bankLeft_loaded b hl, State.unserved_free ha, hw,
      wordCalls_zero]
    rfl
  | hret b hb hl ha =>
    rw [State.callsLeft_of_bank hb, State.callsLeft_of_bank (s := s.handlerReturn) hb, State.bankLeft_loaded b hl,
      State.bankLeft_loaded (s := s.handlerReturn) b hl, State.unserved_awaiting ha, State.unserved_free rfl]
    rfl

/-! ### The steps an entry has still to take (R170) -/

/-- The bits of a word. -/
def wordBits (w : Word) : Finset Nat := {k ∈ Finset.range 32 | w.getLsbD k = true}

@[simp] theorem mem_wordBits {w : Word} {k : Nat} : k ∈ wordBits w ↔ w.getLsbD k = true := by
  rw [wordBits, Finset.mem_filter, Finset.mem_range]
  exact ⟨And.right, fun h => ⟨BitVec.lt_of_getLsbD h, h⟩⟩

/-- Serving a set bit leaves one bit less. -/
theorem card_wordBits_clearBit {w : Word} {k : Nat} (hk : w.getLsbD k = true) :
    (wordBits (clearBit w k)).card + 1 = (wordBits w).card := by
  have herase : wordBits (clearBit w k) = (wordBits w).erase k := by
    ext j
    simp [and_comm]
  rw [herase]
  exact Finset.card_erase_add_one (mem_wordBits.2 hk)

/-- A loaded word has at most a bit for each line of its bank (R168). -/
theorem EngineInv.card_wordBits_le {s : State} {b : Bank} (hs : EngineInv s) (hb : s.phase.bank = some b)
    (hl : s.loaded = true) : (wordBits s.w).card ≤ bankLines b := by
  have hsub : wordBits s.w ⊆ Finset.range (bankLines b) :=
    fun k hk => Finset.mem_range.2 (hs.line_lt hb hl (mem_wordBits.1 hk))
  simpa using Finset.card_le_card hsub

/-- At most so many steps serve a bank that is not loaded: S_LOAD, S_DONE, and for each line S_SELECT and the `h` steps
of a handler. -/
def bankSteps (h : Nat) (b : Bank) : Nat := 2 + (1 + h) * bankLines b

/-- At most so many steps serve the banks behind bank b. -/
def laterSteps (h : Nat) : Bank → Nat
  | .b0 => bankSteps h .b1 + bankSteps h .b2
  | .b1 => bankSteps h .b2
  | .b2 => 0

/-- At most so many steps are left of the scan of a bank: S_DONE, the bits unserved, and the handler that runs. -/
def State.bankStepsLeft (s : State) (h : Nat) (b : Bank) : Nat :=
  if s.loaded then 1 + (1 + h) * (wordBits s.unserved).card + (if s.awaiting then h else 0) else bankSteps h b

/-- At most so many steps are left of the entry, where a handler takes `h` steps: 1 where it does nothing but return, 0
where the steps are counted up to its call. -/
def State.stepsLeft (s : State) (h : Nat) : Nat :=
  match s.phase.bank with
  | some b => s.bankStepsLeft h b + laterSteps h b
  | none => if s.phase = .basicStatusRead then 1 + (bankSteps h .b0 + laterSteps h .b0) else 0

theorem State.stepsLeft_of_bank {s : State} {b : Bank} (h : Nat) (hb : s.phase.bank = some b) :
    s.stepsLeft h = s.bankStepsLeft h b + laterSteps h b := by
  rw [State.stepsLeft, hb]

theorem State.stepsLeft_bsr {s : State} (h : Nat) (hp : s.phase = .basicStatusRead) :
    s.stepsLeft h = 1 + (bankSteps h .b0 + laterSteps h .b0) := by
  simp [State.stepsLeft, hp, Phase.bank]

theorem State.stepsLeft_leaveBank (s : State) (h : Nat) (b : Bank) : (s.leaveBank b).stepsLeft h = laterSteps h b := by
  cases b <;> rfl

theorem State.bankStepsLeft_unloaded {s : State} (h : Nat) (b : Bank) (hl : s.loaded = false) :
    s.bankStepsLeft h b = bankSteps h b := by
  simp [State.bankStepsLeft, hl]

theorem State.bankStepsLeft_free {s : State} (h : Nat) (b : Bank) (hl : s.loaded = true) (ha : s.awaiting = false) :
    s.bankStepsLeft h b = 1 + (1 + h) * (wordBits s.w).card := by
  simp [State.bankStepsLeft, hl, ha, State.unserved_free ha]

theorem State.bankStepsLeft_awaiting {s : State} (h : Nat) (b : Bank) (hl : s.loaded = true)
    (ha : s.awaiting = true) :
    s.bankStepsLeft h b = 1 + (1 + h) * (wordBits (clearBit s.w s.curBit.toNat)).card + h := by
  simp [State.bankStepsLeft, hl, ha, State.unserved_awaiting ha]

/-- After S_SELECT: the bits but the one selected, and the handler where one was called. -/
theorem State.bankStepsLeft_selectEntry_le {s : State} (h : Nat) (b : Bank) (e : VtEntry) (hl : s.loaded = true)
    (ha : s.awaiting = false) :
    (s.selectEntry b e).bankStepsLeft h b ≤ 1 + (1 + h) * (wordBits (clearBit s.w (msb32 s.w))).card + h := by
  rw [State.bankStepsLeft, State.selectEntry_loaded, if_pos hl, State.selectEntry_unserved b e ha]
  split_ifs <;> omega

/-- A loaded bank has fewer steps left than one not loaded (R168). -/
theorem EngineInv.bankStepsLeft_lt {s : State} {b : Bank} (hs : EngineInv s) (h : Nat) (hb : s.phase.bank = some b)
    (hl : s.loaded = true) (ha : s.awaiting = false) : s.bankStepsLeft h b < bankSteps h b := by
  have hbits : (1 + h) * (wordBits s.w).card ≤ (1 + h) * bankLines b :=
    Nat.mul_le_mul_left _ (hs.card_wordBits_le hb hl)
  rw [State.bankStepsLeft_free h b hl ha, bankSteps]
  omega

/-- Each step of an entry leaves fewer steps; the return of a handler, where its steps are counted (R170). -/
theorem EntryStep.stepsLeft_lt {s t : State} {i : Instr} {h : Nat} (hstep : EntryStep s i t) (hs : EngineInv s)
    (hcounted : s.awaiting = true → 0 < h) : t.stepsLeft h < s.stepsLeft h := by
  cases hstep with
  | bsr hp =>
    rw [State.stepsLeft_bsr h hp, State.stepsLeft_of_bank (b := .b0) h rfl, State.bankStepsLeft_unloaded h .b0 rfl]
    omega
  | load b hb hl ha =>
    rw [State.stepsLeft_of_bank h hb, State.bankStepsLeft_unloaded h b hl]
    cases hsum : summary s.bsnap b with
    | true =>
      have hload : EngineInv (s.loadWord b) := hs.load ha hb
      rw [State.loadBank_of_summary hsum, State.stepsLeft_of_bank (s := s.loadWord b) h hb]
      exact Nat.add_lt_add_right (hload.bankStepsLeft_lt h hb rfl ha) _
    | false =>
      rw [State.loadBank_of_no_summary hsum, State.stepsLeft_leaveBank, bankSteps]
      omega
  | select b e hb hl ha hw =>
    have hserved := card_wordBits_clearBit (msb32_set s.w hw)
    have hleft := State.bankStepsLeft_selectEntry_le h b e hl ha
    rw [State.stepsLeft_of_bank h hb, State.stepsLeft_of_bank (b := b) h (by simpa using hb),
      State.bankStepsLeft_free h b hl ha, ← hserved, Nat.mul_add]
    omega
  | done b hb hl ha =>
    rw [State.stepsLeft_leaveBank, State.stepsLeft_of_bank h hb, State.bankStepsLeft_free h b hl ha]
    omega
  | hret b hb hl ha =>
    have hpos := hcounted ha
    rw [State.stepsLeft_of_bank h hb, State.stepsLeft_of_bank (s := s.handlerReturn) h hb,
      State.bankStepsLeft_awaiting h b hl ha, State.bankStepsLeft_free (s := s.handlerReturn) h b hl rfl,
      State.handlerReturn_w]
    omega

/-- An entry in progress goes on to fewer steps left (R170). -/
theorem EngineInv.entryStep_lt {s : State} (hs : EngineInv s) (h : Nat) (hp : s.phase ≠ .idle)
    (hcounted : s.awaiting = true → 0 < h) :
    ∃ t, EntryStep s s.dispatcherStep t ∧ t.stepsLeft h < s.stepsLeft h := by
  obtain ⟨t, ht⟩ := hs.entryStep hp
  exact ⟨t, ht, ht.stepsLeft_lt hs hcounted⟩

/-- No entry with its handlers not counted takes more than 79 steps (R170). -/
theorem EngineInv.stepsLeft_zero_le {s : State} (hs : EngineInv s) (ha : s.awaiting = false) :
    s.stepsLeft 0 ≤ 79 := by
  cases hb : s.phase.bank with
  | none =>
    rw [State.stepsLeft, hb]
    dsimp only
    split_ifs <;> decide
  | some b =>
    have hbank : s.bankStepsLeft 0 b ≤ bankSteps 0 b := by
      cases hl : s.loaded with
      | true => exact (hs.bankStepsLeft_lt 0 hb hl ha).le
      | false => exact (State.bankStepsLeft_unloaded 0 b hl).le
    have htotal : bankSteps 0 b + laterSteps 0 b ≤ 79 := by cases b <;> decide
    rw [State.stepsLeft_of_bank 0 hb]
    omega

/-! ### The run of an entry -/

/-- `t` with the fields that an entry writes as they are in `s`. -/
def State.restoreEntryFields (s t : State) : State :=
  { t with
    phase := s.phase, loaded := s.loaded, awaiting := s.awaiting, trace := s.trace, bsnap := s.bsnap, w := s.w
    curBit := s.curBit }

/-- What the steps of an entry keep: the calls, emitted and still to come, and every field that no entry writes. -/
structure EntryKept (s t : State) : Prop where
  calls : t.trace ++ t.callsLeft = s.trace ++ s.callsLeft
  frame : s.restoreEntryFields t = s

theorem EntryKept.refl (s : State) : EntryKept s s := ⟨rfl, rfl⟩

theorem EntryKept.trans {s t u : State} (hst : EntryKept s t) (htu : EntryKept t u) : EntryKept s u where
  calls := htu.calls.trans hst.calls
  frame := by
    calc s.restoreEntryFields u = s.restoreEntryFields (t.restoreEntryFields u) := rfl
      _ = s := by rw [htu.frame, hst.frame]

/-- Each step of an entry keeps them. -/
theorem EntryStep.kept {s t : State} {i : Instr} (h : EntryStep s i t) : EntryKept s t where
  calls := h.trace_callsLeft
  frame := by
    cases h with
    | load b =>
      unfold State.loadBank
      split_ifs <;> rfl
    | select b e =>
      unfold State.selectEntry
      split_ifs <;> rfl
    | _ => rfl

/-- An entry whose handlers only return is back in Idle within the steps counted (R170). -/
theorem runEntry_to_idle {n : Nat} {s : State} (hs : EngineInv s) (hn : s.stepsLeft 1 ≤ n) :
    ∃ t, runEntry n s = .next t ∧ t.phase = .idle ∧ EngineInv t ∧ EntryKept s t := by
  induction n generalizing s with
  | zero =>
    have hp : s.phase = .idle := by
      by_contra hp
      obtain ⟨t, -, hless⟩ := hs.entryStep_lt 1 hp fun _ => Nat.one_pos
      omega
    exact ⟨s, rfl, hp, hs, .refl s⟩
  | succ n ih =>
    by_cases hp : s.phase = .idle
    · exact ⟨s, by rw [runEntry, if_pos hp], hp, hs, .refl s⟩
    · obtain ⟨t, ht, hless⟩ := hs.entryStep_lt 1 hp fun _ => Nat.one_pos
      obtain ⟨u, hrun, hidle, hu, hkept⟩ := ih (ht.engineInv hs) (by omega)
      refine ⟨u, ?_, hidle, hu, ht.kept.trans hkept⟩
      rw [runEntry, if_neg hp, quietStep_entry hs hp, ht.exec]
      exact hrun

/-- An entry with nothing offered is back in Idle, or has called a handler, within the steps counted (R220; log 9). -/
theorem run_to_idle_or_call {n : Nat} {s : State} (hs : EngineInv s) (hoffers : s.offers = [])
    (hn : s.stepsLeft 0 ≤ n) :
    ∃ m t, m ≤ n ∧ core.run m s = .next t ∧ (t.phase = .idle ∨ t.awaiting = true) := by
  induction n generalizing s with
  | zero =>
    refine ⟨0, s, le_rfl, rfl, or_iff_not_imp_right.2 fun hrunning => ?_⟩
    by_contra hp
    obtain ⟨t, -, hless⟩ := hs.entryStep_lt 0 hp fun ha => absurd ha hrunning
    omega
  | succ n ih =>
    by_cases hend : s.phase = .idle ∨ s.awaiting = true
    · exact ⟨0, s, Nat.zero_le _, rfl, hend⟩
    · obtain ⟨hp, hrunning⟩ := not_or.1 hend
      obtain ⟨t, ht, hless⟩ := hs.entryStep_lt 0 hp fun ha => absurd ha hrunning
      have hstep : step s = .next t :=
        (step_entry hs (nextOffer_nil hoffers) (Bool.eq_false_iff.2 hrunning) hp).trans ht.exec
      obtain ⟨m, u, hm, hrun, hu⟩ := ih (ht.engineInv hs) ((exec_offers ht.exec).trans hoffers) (by omega)
      exact ⟨m + 1, u, by omega, (run_succ core m hstep).trans hrun, hu⟩

end Sys2Proof.Machine

/-- Settles O46: S_BSR and the steps behind it keep the calls of the closed form, and in Idle none is left to come. -/
theorem aQuietEntryEmitsItsClosedForm : Obligations.AQuietEntryEmitsItsClosedForm := by
  intro s hs hp hg
  obtain ⟨hl, ha⟩ := hs.idle hp
  have hentry := exec_entry hp hg
  have hinv : EngineInv s.takeEntry := (exec_effect hentry).keeps_engineInv hs
  have hsteps : s.takeEntry.stepsLeft 1 = 151 := State.stepsLeft_bsr 1 s.takeEntry_phase
  obtain ⟨t, hrun, hidle, ht, hkept⟩ := runEntry_to_idle hinv hsteps.le
  obtain ⟨htl, hta⟩ := ht.idle hidle
  have hnone : t.callsLeft = [] := by simp [State.callsLeft, hidle]
  refine ⟨s.takeEntry, t, hentry, hrun, hidle, ?_, ?_⟩
  · calc t.trace = t.trace ++ t.callsLeft := by rw [hnone, List.append_nil]
      _ = s.trace ++ s.entryCalls s.inBasic s.inPend1 s.inPend2 := hkept.calls
  · calc { t with trace := s.trace, bsnap := s.bsnap, w := s.w, curBit := s.curBit } = s.restoreEntryFields t := by
          simp [State.restoreEntryFields, hidle, hp, htl, hl, hta, ha]
      _ = s.restoreEntryFields (s.takeEntry.restoreEntryFields t) := rfl
      _ = s := by rw [hkept.frame]; rfl

/-- Settles O47: a step that waits keeps everything, and each other keeps the calls. -/
theorem dispatcherStepsKeepTheCallsOfTheEntry : Obligations.DispatcherStepsKeepTheCallsOfTheEntry := by
  intro s t i hs hi hexec
  rcases entryStep_or_waits hs hi hexec with h | rfl
  · exact h.trace_callsLeft
  · rfl

/-- Settles O51: the steps of an entry, with no step counted for its handlers, are at most 79. -/
theorem anEntryGoesOnToIdleOrAHandler : Obligations.AnEntryGoesOnToIdleOrAHandler :=
  fun _ hs hoffers ha _ => run_to_idle_or_call hs hoffers (hs.stepsLeft_zero_le ha)

/-- Settles O48: the steps of a loaded bank, and S_LOAD of bank 2, take states alike but for the inputs to such
states. -/
theorem lateInputChangesLeaveLoadedBanksAlone : Obligations.LateInputChangesLeaveLoadedBanksAlone := by
  intro s basic pend1 pend2 hs late
  have both {i : Instr} (hi : i ∈ entrySteps) (hread : ReadsNoInput s i) :
      ∃ t t', exec i s = .next t ∧ exec i (late s) = .next t' ∧ t' = late t ∧ t'.trace = t.trace := by
    obtain ⟨t, ht, hlate⟩ := exec_withInputs hs hi hread basic pend1 pend2
    exact ⟨t, late t, ht, hlate, rfl, rfl⟩
  refine ⟨fun hl i hi => both ?_ (.inl ⟨hl, hi⟩), fun hp => both (by simp [entrySteps]) (.inr ⟨hp, rfl⟩)⟩
  simp only [List.mem_cons, List.not_mem_nil, or_false] at hi
  rcases hi with rfl | rfl | rfl <;> simp [entrySteps]

/-- Settles O49: the one effect that adds to TRACE calls the highest bit of a W that the shadow mask has filtered. -/
theorem everyCallPassedTheShadowFilter : Obligations.EveryCallPassedTheShadowFilter := by
  intro s t i c hs hexec htrace
  cases exec_effect hexec with
  | call b e hb hl ha hw he hv =>
    have hbit := msb32_set s.w hw
    have hirq : bankBase b + msb32 s.w < 72 := bankBase_add_lt (hs.line_lt hb hl hbit)
    rw [State.callHandler_trace, List.append_cancel_left_eq, List.cons.injEq] at htrace
    obtain ⟨rfl, -⟩ := htrace
    have hnat : (BitVec.ofNat 8 (bankBase b + msb32 s.w)).toNat = bankBase b + msb32 s.w :=
      (BitVec.toNat_ofNat _ _).trans (Nat.mod_eq_of_lt (by omega))
    have hshadow : (s.shadow b).getLsbD (msb32 s.w) = true := getLsbD_of_and_not_eq_zero (hs.filtered b hb hl) hbit
    exact ⟨b, msb32 s.w, e, hb, hnat, hshadow, hnat.symm ▸ he, hv, rfl, rfl⟩
  | _ => simp at htrace

/-- Settles O50: the bit cleared is a bit of W, that of the call which returned or the highest. -/
theorem everyServedBitShrinksTheWord : Obligations.EveryServedBitShrinksTheWord := by
  intro s t hs
  refine ⟨fun ha hexec => ?_, fun ha hl hw hexec => ?_⟩
  · rw [← Host.Outcome.next.inj ((exec_hret_awaiting ha).symm.trans hexec)]
    exact clearBit_toNat_lt (hs.awaitBit ha)
  · obtain ⟨b, hb⟩ := Option.isSome_iff_exists.1 (hs.loadedInScan hl)
    obtain ⟨e, he⟩ := hs.vtEntry_msb32 hb hl hw
    have hselect : exec .sSelect s = .next (s.selectEntry b e) := (EntryStep.select b e hb hl ha hw he).exec
    rw [← Host.Outcome.next.inj (hselect.symm.trans hexec), State.selectEntry]
    split_ifs
    · exact .inl rfl
    · exact .inr (clearBit_toNat_lt (msb32_set s.w hw))

/-- Settles O4: no operation stops, and neither a refused transaction nor rest does. -/
theorem noStepStopsUnderTheInvariant : Obligations.NoStepStopsUnderTheInvariant := by
  intro s hs
  rcases step_cases s with ⟨o, os, i, -, -, -, h⟩ | ⟨o, os, r, -, -, -, h⟩ | ⟨i, -, -, h⟩ | ⟨-, -, h⟩
  · rw [h]
    exact EngineInv.exec_next (s := { s with offers := os }) (hs.congr rfl) i
  · rw [h]
    refine csrTurn_next ?_
    exact ⟨_, rfl⟩
  · rw [h]
    exact hs.exec_next i
  · exact ⟨_, h⟩

/-- Settles O14: the internal step of each row of the dispatcher's table, of Idle, and of a handler that runs. -/
theorem anUnattendedMachineTakesItsInternalStep : Obligations.AnUnattendedMachineTakesItsInternalStep := by
  intro s hs hnone
  have hrest : s.rest = s := State.rest_legal (State.findsCorruptPhase_of_legal hs.phaseLegal)
  have stays (hi : internalStep s = none) : step s = .next s := by rw [step_rest hnone hi, hrest]
  have scanning (ha : s.awaiting = false) (hb : s.phase.bank.isSome = true) {i : Instr}
      (hi : (if !s.loaded then .sLoad else if s.w = 0#32 then .sDone else .sSelect) = i) : step s = exec i s := by
    obtain ⟨hidle, hbsr⟩ := Phase.ne_of_bank_isSome hb
    have hrow : s.dispatcherStep = i := by simpa [State.dispatcherStep, ha, hidle, hbsr] using hi
    rw [step_entry hs hnone ha hidle, hrow]
  have idle (hp : s.phase = .idle) := internalStep_idle (hs.idle hp).2 hp
  refine ⟨fun ha => stays (internalStep_awaiting ha), fun ha hp => ?bsr, fun ha hb hl => ?load,
    fun ha hl hw => ?select, fun ha hl hw => ?done, fun hp ht => ?commit, fun hp ht hg hline => ?entry,
    fun hp ht hclosed => ?idle⟩
  case bsr =>
    rw [step_entry hs hnone ha (by simp [hp])]
    simp [State.dispatcherStep, ha, hp]
  case load => exact scanning ha hb (by simp [hl])
  case select => exact scanning ha (hs.loadedInScan hl) (by simp [hl, hw])
  case done => exact scanning ha (hs.loadedInScan hl) (by simp [hl, hw])
  case commit => exact step_internal hnone (by rw [idle hp, if_pos ht])
  case entry => exact step_internal hnone (by simp [idle hp, ht, hg, hline])
  case idle => exact stays (by rcases hclosed with h | h <;> simp [idle hp, ht, h])

/-- Settles O41: msb32 is the index of the bit that is set with none above it, and S_SELECT reads its entry. -/
theorem selectServesTheHighestPendingLine : Obligations.SelectServesTheHighestPendingLine := by
  intro s b k e ⟨hb, ha⟩ hl hk habove he
  obtain rfl : msb32 s.w = k := msb32_unique s.w k hk habove
  have hw : s.w ≠ 0#32 := by
    intro h
    simp [h] at hk
  have hselect : exec .sSelect s = .next (s.selectEntry b e) := (EntryStep.select b e hb hl ha hw he).exec
  refine ⟨fun hv => ?_, fun hv => ⟨_, hselect, ?_⟩⟩
  · rw [hselect, State.selectEntry, if_pos hv]
    rfl
  · rw [State.selectEntry, hv]
    exact ⟨clearBit_getLsbD_ne s.w (msb32 s.w), rfl⟩

/-- Settles O53: no other effect writes an input. -/
theorem onlyEnvChangesTheInputs : Obligations.OnlyEnvChangesTheInputs :=
  fun _ _ _ hexec hi => (exec_effect hexec).inputs_cases.resolve_right fun ⟨b, p1, p2, h⟩ => hi b p1 p2 h

/-- Settles O59, from the effects an operation can have while a handler runs. -/
theorem aHandlerThatDoesNotReturnHoldsTheEngine : Obligations.AHandlerThatDoesNotReturnHoldsTheEngine :=
  fun _ _ _ hs ha hi hexec => (exec_effect hexec).restoreHeldFields hs ha hi

/-- Settles O38: where ENTRY's guard is false it waits. -/
theorem entryIsTakenInIdleWithTheGateOpen : Obligations.EntryIsTakenInIdleWithTheGateOpen := by
  intro s
  refine ⟨exec_entry, fun hlegal hclosed => anOperationThatIsNotEnabledWaits .entry s ?_⟩
  refine Bool.eq_false_iff.2 fun hen => ?_
  obtain ⟨-, hentry, -⟩ := theGuardsOfTheOperations s hlegal
  obtain ⟨hp, hg⟩ := hentry.1 hen
  rcases hclosed with h | h
  · exact h hp
  · simp [hg] at h

/-- Settles O39: the snapshot is of IN_BASIC. -/
theorem basicStatusReadTakesTheSnapshot : Obligations.BasicStatusReadTakesTheSnapshot :=
  fun _ hp ha => exec_sBsr hp ha

/-- Settles O40: bank by bank, S_LOAD with the summary set and with it clear. -/
theorem loadFiltersThePendingWord : Obligations.LoadFiltersThePendingWord := by
  intro s hl ha
  have load {b : Bank} (hb : s.phase.bank = some b) (hsum : summary s.bsnap b = true) :
      exec .sLoad s = .next (s.loadWord b) := by
    rw [exec_sLoad hb hl ha, State.loadBank_of_summary hsum]
  have skip {b : Bank} (hb : s.phase.bank = some b) (hsum : summary s.bsnap b = false) :
      exec .sLoad s = .next { s with phase := nextPhase b } := by
    rw [exec_sLoad hb hl ha, State.loadBank_of_no_summary hsum, State.leaveBank_unloaded b hl]
  have bank0 (hp : s.phase = .bank0Scan) : s.phase.bank = some .b0 := by rw [hp]; rfl
  have bank1 (hp : s.phase = .bank1Scan) : s.phase.bank = some .b1 := by rw [hp]; rfl
  have bank2 (hp : s.phase = .bank2Scan) : s.phase.bank = some .b2 := by rw [hp]; rfl
  refine ⟨fun hp => load (bank0 hp), fun hp => skip (bank0 hp), fun hp => load (bank1 hp), fun hp => skip (bank1 hp),
    fun hp hsum => ?_, fun hp hsum => skip (bank2 hp) (Bool.eq_false_iff.2 fun h => (summary_b2 _).1 h hsum)⟩
  rw [load (bank2 hp) ((summary_b2 _).2 hsum), State.loadWord, State.source_b2, lowByte_eq_extract]
  rfl

/-- Settles O42: the bit cleared is that of CUR_BIT. -/
theorem handlerReturnClearsItsBit : Obligations.HandlerReturnClearsItsBit :=
  fun s ha => ⟨_, exec_hret_awaiting ha, rfl, clearBit_getLsbD_ne s.w s.curBit.toNat, rfl⟩

/-- Settles O43: each scan phase is left for the next. -/
theorem doneGoesToTheNextBank : Obligations.DoneGoesToTheNextBank := by
  intro s hl ha hw
  have leave {b : Bank} (hb : s.phase.bank = some b) : exec .sDone s = .next (s.leaveBank b) := exec_sDone hb hl ha hw
  exact ⟨fun hp => leave (b := .b0) (by rw [hp]; rfl), fun hp => leave (b := .b1) (by rw [hp]; rfl),
    fun hp => leave (b := .b2) (by rw [hp]; rfl)⟩

/-- Settles O44: a coherent payload is offered in any case, an incoherent one where SUMMARY_COHERENT is not set. -/
theorem envReplacesTheInputs : Obligations.EnvReplacesTheInputs := by
  intro s basic pend1 pend2 coherent replaced
  refine ⟨fun h => ?_, fun h => ?_⟩
  · have hoffered : enabled (.env basic pend1 pend2) s = true :=
      envGuard_of_coherent ((coherentInputs_iff basic pend1 pend2).2 h)
    rw [exec_env, if_pos hoffered]
  · have hincoherent : coherentInputs basic pend1 pend2 = false :=
      Bool.eq_false_iff.2 fun hc => h ((coherentInputs_iff basic pend1 pend2).1 hc)
    have hoffered : enabled (.env basic pend1 pend2) s = !Config.summaryCoherent := by
      rw [enabled, envGuard, payloadOffered, hincoherent, Bool.false_or]
    rw [exec_env, hoffered]
    cases Config.summaryCoherent <;> rfl

end

section
/-! PROOFS. The global mask (43_global_mask.md): BLOCK and UNBLOCK, the gate after a sequence of gate commands, and what
a closed gate leaves to change in Idle. -/

open Sys2Proof Sys2Proof.Machine

namespace Sys2Proof.Machine

/-! ### Sequences of gate commands (R202) -/

/-- The commands that write the gate: BLOCK, UNBLOCK and an in-range REGISTER (R36). -/
def IsGateCommand (i : Instr) : Prop :=
  i = .block ∨ i = .unblock ∨ ∃ irq v d0 ctx, i = .register irq v d0 ctx ∧ irq.toNat < 72

/-- The gate after gate commands run in order from gate `g`: what the last of them sets (R202). -/
def gateAfter (is : List Instr) (g : Bool) : Bool :=
  match is.getLast? with
  | none => g
  | some i => decide (i = .block)

/-- The gate the first command leaves is where the others start from. -/
theorem gateAfter_cons (i : Instr) (is : List Instr) (g : Bool) :
    gateAfter (i :: is) g = gateAfter is (decide (i = .block)) := by
  rw [gateAfter, gateAfter, List.getLast?_cons]
  cases is.getLast? <;> rfl

/-- A gate command of THREAD sets the gate if it is BLOCK, else clears it, and THREAD may command again (R140, R200,
R201). -/
theorem exec_gateCommand {i : Instr} {s : State} (h : s.threadMayCommand) (hi : IsGateCommand i) :
    ∃ t, exec i s = .next t ∧ t.threadMayCommand ∧ t.gmask = decide (i = .block) := by
  obtain rfl | rfl | ⟨irq, v, d0, ctx, rfl, hirq⟩ := hi
  · exact ⟨_, exec_block h, h, rfl⟩
  · exact ⟨_, exec_unblock h, h, rfl⟩
  · exact ⟨_, exec_register v d0 ctx h hirq, h, rfl⟩

/-- Gate commands of THREAD run to their end, each from the gate the one before left. -/
theorem execAll_gateCommands {is : List Instr} {s : State} (h : s.threadMayCommand) (his : ∀ i ∈ is, IsGateCommand i) :
    ∃ t, execAll is s = .next t ∧ t.threadMayCommand ∧ t.gmask = gateAfter is s.gmask := by
  induction is generalizing s with
  | nil => exact ⟨s, rfl, h, rfl⟩
  | cons i is ih =>
    obtain ⟨hi, hrest⟩ := List.forall_mem_cons.1 his
    obtain ⟨u, hexec, hu, hgate⟩ := exec_gateCommand h hi
    obtain ⟨t, hrun, ht, hlast⟩ := ih hu hrest
    refine ⟨t, ?_, ht, ?_⟩
    · rw [execAll, hexec]
      exact hrun
    · rw [hlast, hgate, gateAfter_cons]

/-! ### A closed gate in Idle (R203) -/

/-- In Idle no bank is being scanned (R163). -/
theorem State.no_bank_of_idle {s : State} {b : Bank} (hp : s.phase = .idle) : s.phase.bank ≠ some b := by
  rw [hp]
  nofun

/-- In Idle with the gate closed, what is no command and no S_COMMIT is refused, a CSR access, ENV, or waits (R203). -/
theorem Effect.restoreHeldFields_of_closed {s t : State} {i : Instr} (he : Effect s i t) (hg : s.gmask = true)
    (hp : s.phase = .idle) (ha : s.awaiting = false) (hcmd : ¬ isCommand i) (hcommit : i ≠ .sCommit) :
    s.restoreHeldFields t = s := by
  cases he with
  | waits | env => rfl
  | corrupt | read | write => simp [State.restoreHeldFields]
  | inHandler _ _ h | ignored _ h => exact absurd h hcmd
  | register | enable | disable | block | unblock => exact absurd rfl hcmd
  | entry _ hopen => exact absurd hg (Bool.eq_false_iff.1 hopen)
  | hret hbusy => exact absurd hbusy (Bool.eq_false_iff.1 ha)
  | bsr hbsr => cases hp.symm.trans hbsr
  | load _ hb | skip _ hb | call _ _ hb | noHandler _ _ hb | done _ hb => exact absurd hb (State.no_bank_of_idle hp)
  | commit => exact absurd rfl hcommit

end Sys2Proof.Machine

/-- Settles O35, by induction on the sequence: each gate command leaves THREAD free to give the next. -/
theorem theLastGateCommandDecides : Obligations.TheLastGateCommandDecides :=
  fun _ _ hmay his => execAll_gateCommands hmay his

/-- Settles O60, from the effects an operation can have in Idle with the gate closed. -/
theorem aClosedGateLeavesOnlyThread : Obligations.AClosedGateLeavesOnlyThread :=
  fun _ _ _ hg hp ha hcmd hcommit hexec => (exec_effect hexec).restoreHeldFields_of_closed hg hp ha hcmd hcommit

/-- Settles O32: each of the two commands of THREAD writes the gate alone. -/
theorem blockAndUnblockMoveTheGate : Obligations.BlockAndUnblockMoveTheGate :=
  fun _ hmay => ⟨exec_block hmay, exec_unblock hmay⟩

end

section
/-! PROOFS. Interrupt entry (60_exceptions.md): the moves of PHASE an operation can make, and where an entry begins. -/

open Sys2Proof Sys2Proof.Machine

namespace Sys2Proof.Machine

/-- The scan of a bank is followed by the next bank or by Idle, never by another BasicStatusRead (R161). -/
theorem nextPhase_ne_basicStatusRead (b : Bank) : nextPhase b ≠ .basicStatusRead := by cases b <;> nofun

/-- The moves of PHASE: ENTRY begins an entry from Idle with the gate open, S_BSR begins the scan, S_LOAD and S_DONE
leave a bank, and no other operation writes it (R160 to R167). -/
theorem Effect.phase_cases {s t : State} {i : Instr} (he : Effect s i t) :
    t.phase = s.phase ∨
      (i = .entry ∧ s.phase = .idle ∧ s.gmask = false ∧ t.phase = .basicStatusRead) ∨
      (i = .sBsr ∧ s.phase = .basicStatusRead ∧ t.phase = .bank0Scan) ∨
      ((i = .sLoad ∨ i = .sDone) ∧ ∃ b, s.phase.bank = some b ∧ t.phase = nextPhase b) := by
  cases he with
  | entry hp hg => exact .inr (.inl ⟨rfl, hp, hg, rfl⟩)
  | bsr hp => exact .inr (.inr (.inl ⟨rfl, hp, rfl⟩))
  | skip b hb => exact .inr (.inr (.inr ⟨.inl rfl, b, hb, rfl⟩))
  | done b hb => exact .inr (.inr (.inr ⟨.inr rfl, b, hb, rfl⟩))
  | _ => exact .inl (by simp)

end Sys2Proof.Machine

/-- Settles O56, from the moves of PHASE: of those, ENTRY alone leads into BasicStatusRead. -/
theorem entriesNeverNest : Obligations.EntriesNeverNest := by
  intro i s t hexec hbegun hbefore
  obtain hkept | ⟨hi, hp, hg, -⟩ | ⟨-, hp, -⟩ | ⟨-, b, -, hnext⟩ := (exec_effect hexec).phase_cases
  · exact absurd (hkept.symm.trans hbegun) hbefore
  · exact ⟨hi, hp, hg⟩
  · exact absurd hp hbefore
  · exact absurd (hnext.symm.trans hbegun) (nextPhase_ne_basicStatusRead b)

end

section
/-! PROOFS. Reset and hazards (70_reset_and_hazards.md): the values after reset, what keeps an engine without shadow bits
silent, and the entry between the two halves of ENABLE or DISABLE. -/

open Sys2Proof Sys2Proof.Machine

namespace Sys2Proof.Machine

/-! ### Reset (R240) -/

/-- After reset every shadow mask is 0 (R59). -/
theorem shadow_reset (b : Bank) : State.reset.shadow b = 0#32 := by cases b <;> rfl

/-- After reset the table has an empty entry for each line (R59). -/
theorem vtEntry_reset_of_lt {irq : Nat} (hirq : irq < 72) : State.reset.vtEntry irq = some VtEntry.empty := by
  have hsome : (State.reset.vtEntry irq).isSome = true := (State.reset.vtEntry_isSome irq).trans (decide_eq_true hirq)
  obtain ⟨e, he⟩ := Option.isSome_iff_exists.1 hsome
  exact he.trans (congrArg some (vtEntry_reset he))

/-! ### Before the first ENABLE (R242) -/

/-- A commit is left pending as SET by an ENABLE alone (R141). -/
theorem Effect.set_pending {s t : State} {i : Instr} {b : Bank} {m : Word} (he : Effect s i t)
    (ht : t.tpend = .set b m) : s.tpend = .set b m ∨ ∃ irq, i = .enable irq := by
  cases he with
  | enable irq => exact .inr ⟨irq, rfl⟩
  | disable => cases ht
  | commit => cases s.commit_tpend.symm.trans ht
  | _ => exact .inl (by simpa using ht)

/-- The commit of a CLR leaves masks of 0 as they are (R143). -/
theorem State.commit_shadow_eq_zero {s : State} (hshadow : ∀ b, s.shadow b = 0#32)
    (hpend : ∀ b m, s.tpend ≠ .set b m) (b : Bank) : s.commit.shadow b = 0#32 := by
  cases ht : s.tpend with
  | none => rw [s.commit_shadow, ht]; exact hshadow b
  | set b' m => exact absurd ht (hpend b' m)
  | clr b' m => rw [State.commit_shadow_clr ht, hshadow, BitVec.zero_and, ite_self]

/-- Masks of 0 stay 0 while no SET is pending: only a commit writes them (R51). -/
theorem Effect.shadow_eq_zero {s t : State} {i : Instr} (he : Effect s i t) (hshadow : ∀ b, s.shadow b = 0#32)
    (hpend : ∀ b m, s.tpend ≠ .set b m) (b : Bank) : t.shadow b = 0#32 := by
  cases he with
  | commit => exact State.commit_shadow_eq_zero hshadow hpend b
  | read r => exact (s.csrRead_shadow r b).trans (hshadow b)
  | write r v => exact (s.csrWrite_shadow r v b).trans (hshadow b)
  | enable irq b' => exact (s.csrWrite_shadow (enablePort b') (bitmask irq) b).trans (hshadow b)
  | disable irq b' => exact (s.csrWrite_shadow (disablePort b') (bitmask irq) b).trans (hshadow b)
  | _ => exact hshadow b

/-- Under masks of 0 a word is loaded as 0, and an operation sets no bit of a loaded word (R164, R242). -/
theorem Effect.loaded_word_eq_zero {s t : State} {i : Instr} (he : Effect s i t) (hshadow : ∀ b, s.shadow b = 0#32)
    (hw : s.loaded = true → s.w = 0#32) (hl : t.loaded = true) : t.w = 0#32 := by
  cases he with
  | load b =>
    change s.source b &&& s.shadow b = 0#32
    rw [hshadow, BitVec.and_zero]
  | noHandler _ _ _ hloaded _ hbit => exact absurd (hw hloaded) hbit
  | hret =>
    change clearBit s.w s.curBit.toNat = 0#32
    rw [hw hl, clearBit, BitVec.zero_and]
  | entry | bsr | skip | done => cases hl
  | _ => simpa using hw (by simpa using hl)

/-- With no bit in a loaded word S_SELECT calls no handler, so AWAIT stays 0 and TRACE as it was (R166). -/
theorem Effect.silent_of_no_bit {s t : State} {i : Instr} (he : Effect s i t) (hw : s.loaded = true → s.w = 0#32)
    (hfree : s.awaiting = false) : t.awaiting = false ∧ t.trace = s.trace := by
  cases he with
  | call _ _ _ hloaded _ hbit => exact absurd (hw hloaded) hbit
  | _ => simp [hfree]

/-! ### The window of ENABLE and DISABLE (R250) -/

/-- HWEN of bank b: HWEN0, HWEN1 or HWENB (R49). -/
def State.hwen (s : State) : Bank → Word
  | .b0 => s.hwen0
  | .b1 => s.hwen1
  | .b2 => s.hwenb

/-- A write of a bank's enable port sets bits of its HWEN (R144). -/
theorem State.csrWrite_enablePort_hwen (s : State) (b : Bank) (v : Word) :
    (s.csrWrite (enablePort b) v).hwen b = s.hwen b ||| v := by
  cases b <;> rfl

/-- A write of a bank's disable port clears bits of its HWEN (R144). -/
theorem State.csrWrite_disablePort_hwen (s : State) (b : Bank) (v : Word) :
    (s.csrWrite (disablePort b) v).hwen b = s.hwen b &&& ~~~v := by
  cases b <;> rfl

/-- The mask of a line has the bit of its place in its bank (R12). -/
theorem bitmask_getLsbD_of_bank {irq : BitVec 8} {b : Bank} (hb : bankOfIrq irq = some b) :
    (bitmask irq).getLsbD (irq.toNat - bankBase b) = true := by
  have hplace : irq.toNat - bankBase b = irq.toNat % 32 := by
    rcases (bankOfIrq_eq_some irq b).1 hb with ⟨rfl, _⟩ | ⟨rfl, _, _⟩ | ⟨rfl, _, _⟩ <;> simp only [bankBase] <;> omega
  rw [bitmask_getLsbD, hplace, decide_eq_true rfl]

/-- `u` is `s` after the first half of an ENABLE (`on`) or DISABLE of `irq`: the line's hardware enable is written, its
shadow bit is not, and the commit is pending (R141, R142). -/
structure FirstHalf (s u : State) (irq : BitVec 8) (on : Bool) : Prop where
  phase : u.phase = s.phase
  gmask : u.gmask = s.gmask
  awaiting : u.awaiting = s.awaiting
  pending : u.tpend ≠ .none
  shadow : ∀ b, u.shadow b = s.shadow b
  hardware : ∀ b, bankOfIrq irq = some b → (u.hwen b).getLsbD (irq.toNat - bankBase b) = on

/-- A write of HWEN that leaves the line's bit as `on`, with a commit left pending, is a first half. -/
theorem firstHalf_of_csrWrite {s : State} {irq : BitVec 8} {b : Bank} {r : CsrReg} {p : TPend} {on : Bool}
    (hb : bankOfIrq irq = some b) (hp : p ≠ .none)
    (hbit : ((s.csrWrite r (bitmask irq)).hwen b).getLsbD (irq.toNat - bankBase b) = on) :
    FirstHalf s { s.csrWrite r (bitmask irq) with tpend := p } irq on where
  phase := s.csrWrite_phase _ _
  gmask := s.csrWrite_gmask _ _
  awaiting := s.csrWrite_awaiting _ _
  pending := hp
  shadow := s.csrWrite_shadow _ _
  hardware := fun b' hb' => by
    obtain rfl : b = b' := Option.some.inj (hb.symm.trans hb')
    exact hbit

/-- The first half of ENABLE, for a line of a bank (R141). -/
theorem exec_enable_firstHalf {s : State} {irq : BitVec 8} {b : Bank} (h : s.threadMayCommand)
    (hb : bankOfIrq irq = some b) : ∃ u, exec (.enable irq) s = .next u ∧ FirstHalf s u irq true := by
  refine ⟨_, exec_enable h hb, firstHalf_of_csrWrite hb nofun ?_⟩
  rw [State.csrWrite_enablePort_hwen, getLsbD_setBits, bitmask_getLsbD_of_bank hb, Bool.true_or]

/-- The first half of DISABLE, for a line of a bank (R142). -/
theorem exec_disable_firstHalf {s : State} {irq : BitVec 8} {b : Bank} (h : s.threadMayCommand)
    (hb : bankOfIrq irq = some b) : ∃ u, exec (.disable irq) s = .next u ∧ FirstHalf s u irq false := by
  refine ⟨_, exec_disable h hb, firstHalf_of_csrWrite hb nofun ?_⟩
  rw [State.csrWrite_disablePort_hwen, getLsbD_clearBits, bitmask_getLsbD_of_bank hb, Bool.not_true, Bool.and_false]

/-- Where no handler runs, taking an entry leaves AWAIT as it was (R160). -/
theorem State.takeEntry_of_free {s : State} (ha : s.awaiting = false) :
    s.takeEntry = { s with phase := .basicStatusRead, loaded := false } := by
  rw [State.takeEntry, ← ha]

/-- An operation that leaves Idle with the gate open, and the ENTRY after it (R160). -/
theorem execAll_entry {i : Instr} {s u : State} (hexec : exec i s = .next u) (hp : u.phase = .idle)
    (hg : u.gmask = false) : execAll [i, .entry] s = .next u.takeEntry := by
  simp [execAll, hexec, exec_entry hp hg]

/-- Inside an entry just taken S_COMMIT has to wait for Idle (R143). -/
theorem State.takeEntry_not_sCommit (s : State) : enabled .sCommit s.takeEntry = false := rfl

end Sys2Proof.Machine

/-- Settles O58, clause by clause: no mask gains a bit without an ENABLE, so no word does, and no handler is called. -/
theorem noCallBeforeTheFirstEnable : Obligations.NoCallBeforeTheFirstEnable := by
  refine ⟨⟨shadow_reset, nofun, nofun, rfl⟩, fun i s t ⟨hshadow, hpend, hw, hfree⟩ hi hexec => ?_⟩
  have he := exec_effect hexec
  obtain ⟨hawaiting, htrace⟩ := he.silent_of_no_bit hw hfree
  have hpend' (b : Bank) (m : Word) (ht : t.tpend = .set b m) : False :=
    (he.set_pending ht).elim (hpend b m) fun ⟨irq, hirq⟩ => hi irq hirq
  exact ⟨⟨he.shadow_eq_zero hshadow hpend, hpend', he.loaded_word_eq_zero hshadow hw, hawaiting⟩, htrace⟩

/-- Settles O1: each field is what State.reset gives it, the table and the masks entry by entry. -/
theorem resetHoldsTheStatedValues : Obligations.ResetHoldsTheStatedValues :=
  ⟨rfl, rfl, rfl, rfl, rfl, rfl, rfl, rfl, fun _ hirq => vtEntry_reset_of_lt hirq, shadow_reset, rfl, rfl⟩

/-- Settles O36: either first half leaves Idle with the gate open, so ENTRY is taken with the commit still pending. -/
theorem anEntryFallsInTheEnableWindow : Obligations.AnEntryFallsInTheEnableWindow := by
  intro s irq hmay hgate hirq half hhalf
  obtain ⟨b, hb⟩ := Option.ne_none_iff_exists'.1 fun hnone => Nat.not_le.2 hirq ((bankOfIrq_eq_none irq).1 hnone)
  obtain ⟨u, hexec, hu⟩ : ∃ u, exec half.1 s = .next u ∧ FirstHalf s u irq half.2 := by
    simp only [List.mem_cons, List.not_mem_nil, or_false] at hhalf
    obtain rfl | rfl := hhalf
    · exact exec_enable_firstHalf hmay hb
    · exact exec_disable_firstHalf hmay hb
  obtain ⟨ha, hp, -⟩ := hmay
  exact ⟨u, u.takeEntry, hexec, execAll_entry hexec (hu.phase.trans hp) (hu.gmask.trans hgate),
    State.takeEntry_of_free (hu.awaiting.trans ha), fun hhigh => hu.hardware .b0 (bankOfIrq_b0 hhigh),
    fun hlow hhigh => hu.hardware .b1 (bankOfIrq_b1 hlow hhigh), fun hlow => hu.hardware .b2 (bankOfIrq_b2 hlow hirq),
    hu.pending, hu.shadow, u.takeEntry_not_sCommit⟩

end
